-- ==== Sys2Proof/Word.lean ====
section
/-!
DEFINITION. The word types of the block (00_scope R8), its frames (R9), and the closed enumerations the
rules name: result classes (60_exceptions R210), device error categories (41_error_mapper R157), the
outcome of a transfer attempt (20_memory R72, R73).
-/

namespace Sys2Proof

/-- A byte: 8 bits, unsigned (00_scope R8). -/
abbrev Byte := BitVec 8

/-- A word: 16 bits, unsigned (00_scope R8). -/
abbrev Word := BitVec 16

/-- A frame, or a frame buffer: exactly six bytes, at offsets 0 to 5 (00_scope R9, 30_encoding R90). -/
structure Frame where
  b0 : Byte
  b1 : Byte
  b2 : Byte
  b3 : Byte
  b4 : Byte
  b5 : Byte
  deriving DecidableEq, Repr, Inhabited

/-- The result classes of a transaction (60_exceptions R210). Codes 10 to 15 have no constructor. -/
inductive Status where
  | ok
  | writeFailed
  | readFailed
  | timeout
  | length
  | framing
  | checksum
  | respType
  | device
  | illegalOpcode
  deriving DecidableEq, Repr, Inhabited

/-- The six device error categories (41_error_mapper R150, R157). -/
inductive Category where
  | unknown
  | invalidAddress
  | invalidBcc
  | invalidCommand
  | invalidParameter
  | outOfRange
  deriving DecidableEq, Repr, Inhabited

/-- The `err` half of a channel's answer to a transfer attempt (20_memory R72, R73). -/
inductive Xfer where
  | ok
  | fail
  deriving DecidableEq, Repr, Inhabited

/-- What a transaction, or `parseResponse`, yields: status, value and info word
(42_transaction_engine R165, 60_exceptions R212). -/
structure Result where
  status : Status
  value  : Word
  info   : Word
  deriving DecidableEq, Repr, Inhabited

end Sys2Proof
end

