-- ==== Sys2Proof/Config.lean ====
section
/-!
DEFINITION. The parameters of 00_scope R7, the moves of the environment and of the arbiter that a run is
made of (42_transaction_engine R191, R192), the input ports of the clocked binding (R189, R190), and the free
values: constants without a body, of which no proof can see anything.
-/

namespace Sys2Proof

/-- The OPEN parameters of 00_scope R7 that a rule of the block or of its channel reads. They are part of the
state, so every statement ranges over them (log entry 3). -/
structure Params where
  /-- `T_DEADLINE`: ticks a transaction may take (R7, 10_state R27). -/
  tDeadline : Nat
  /-- `T_CHREAD`: longest wait of one read attempt (R7, 20_memory R74). -/
  tChRead   : Nat
  /-- `T_CHWRITE`: longest wait of one write attempt; `none` is unbounded (R7). -/
  tChWrite  : Option Nat
  /-- `MAX_XFER`: most bytes one attempt may move (R7). -/
  maxXfer   : Nat
  /-- `BIT_RATE`: handed to the channel; no rule of the core reads it (R7, 10_state R27). -/
  bitRate   : Nat
  deriving DecidableEq, Repr, Inhabited

/-- `FRAME_LEN` (00_scope R7, FIXED). -/
def frameLen : Nat := 6

/-- The constraints a configuration must meet (00_scope R7, 70_reset_and_hazards R263; premise `CONFIG_OK` of
42_transaction_engine R193). Never assumed silently. -/
abbrev Params.ok (c : Params) : Prop :=
  1 ≤ c.tDeadline ∧ 1 ≤ c.tChRead ∧ c.tChRead < c.tDeadline ∧ 1 ≤ c.maxXfer ∧ c.maxXfer ≤ 6 ∧ 0 < c.bitRate

/-- The parameters `State.reset` is given: the clocked binding with the figures of the programs of
95_test_vectors section 5 (DESIGN CHOICE, unsafe, log entry 3: the source gives none). -/
def Config.params : Params :=
  { tDeadline := 20, tChRead := 1, tChWrite := some 1, maxXfer := 1, bitRate := 1 }

/-- `N_CALLERS` of `State.reset` (DESIGN CHOICE, unsafe, log entry 3). -/
def Config.nCallers : Nat := 2

/-- One move of a run (42_transaction_engine R191). A move carries the draws its rule leaves open; a draw
outside the rule's range is cut to it (log entry 8), a move whose enabling condition fails changes nothing
(log entry 7). -/
inductive Move where
  /-- `rst` (70_reset_and_hazards R250, R251). -/
  | reset
  /-- Channel construction and configuration before `open` (70_reset_and_hazards R252, steps 2 to 4; log entry 16). -/
  | configure (c : Params)
  /-- `open` (42_transaction_engine R166). -/
  | openChannel
  /-- Caller `i` requests `send(op, val)` (R167). -/
  | request (i : Nat) (op : Byte) (val : Word)
  /-- The arbiter grants the lock to caller `i` (R168). -/
  | grant (i : Nat)
  /-- A write step; the channel accepts `n` bytes, answers `err`, and the attempt lasts `dur` ticks (R173, R175). -/
  | write (n : Nat) (err : Xfer) (dur : Nat)
  /-- A read step; the channel delivers `n` bytes, answers `err`, and the attempt lasts `dur` ticks (R174, R176). -/
  | read (n : Nat) (err : Xfer) (dur : Nat)
  /-- The decode step (R180). -/
  | decode
  /-- Caller `i` takes its response (R182). -/
  | response (i : Nat)
  /-- The device appends bytes to `RXQ` (20_memory R75). -/
  | device (bs : List Byte)
  /-- `NOW` advances by `k`, or by as much of it as the rules admit in this phase (20_memory R76; log entry 24). -/
  | advance (k : Nat)
  deriving DecidableEq, Repr, Inhabited

/-- The inputs of one clock edge (42_transaction_engine R186, R189, R190). `rx_data` is no field: it is the head
of `RXQ`. `cfg_t_deadline` is held in the configuration, since it must not change while `OPEN = 1`. -/
structure PortsIn where
  /-- `rst`. -/
  rst      : Bool
  /-- `open_req`. -/
  openReq  : Bool
  /-- The arbiter's draw (R168); it counts only if that caller waits. -/
  arb      : Nat
  /-- `req_valid[i]` with `req_op[i]`, `req_val[i]`, by caller. -/
  req      : List (Option (Byte × Word))
  /-- `rsp_ready[i]`, by caller. -/
  rspReady : List Bool
  /-- `tx_ready`. -/
  txReady  : Bool
  /-- `tx_err`. -/
  txErr    : Bool
  /-- `rx_valid`. -/
  rxValid  : Bool
  /-- `rx_err`. -/
  rxErr    : Bool
  /-- Bytes the device appends to `RXQ` at this edge (20_memory R75). -/
  device   : List Byte
  deriving DecidableEq, Repr, Inhabited

/-- What one step of the model takes: a move of the abstract semantics (42_transaction_engine R191) or an
edge of the clock (R186). -/
inductive Event where
  | move (m : Move)
  | edge (p : PortsIn)
  deriving DecidableEq, Repr, Inhabited

/-- The event of draw `n`, where the state lists none (log entry 5). Free: nothing constrains it. -/
opaque Config.freeEvent : Nat → Event

/-- Unspecified bytes after `rst`, by draw and place (10_state R33, log entry 6). Free. -/
opaque Config.freeByte : Nat → Nat → Byte

/-- Unspecified words after `rst`, by draw and place (10_state R33, log entry 6). Free. -/
opaque Config.freeWord : Nat → Nat → Word

/-- Unspecified naturals (`OWNER`, `DEADLINE`) after `rst`, by draw and place (10_state R33, log entry 6). Free. -/
opaque Config.freeNat : Nat → Nat → Nat

/-- The unspecified status field of `RSP[i]` after `rst`, by draw and caller (10_state R33, log entry 6). Free. -/
opaque Config.freeStatus : Nat → Nat → Status

/-- `TXT_02` (00_scope R7): not in any source (log entry 15). -/
opaque Config.txt02 : String

/-- `TXT_04` (00_scope R7): not in any source (log entry 15). -/
opaque Config.txt04 : String

/-- `TXT_05` (00_scope R7): not in any source (log entry 15). -/
opaque Config.txt05 : String

/-- `TXT_06` (00_scope R7): not in any source (log entry 15). -/
opaque Config.txt06 : String

/-- The words around the fragments that the source gives of a message, by class, info word and place (30_encoding R107):
not in any source, nor whether they carry anything of the info word (log entry 15). -/
opaque Config.wording : Status → Word → Nat → String

/-- How a message other than the device errors' writes a byte: the source gives no number format (log entry 15). -/
opaque Config.byteText : Byte → String

/-- `PORT_ID` (00_scope R7): never enters the core; no rule reads it. -/
opaque Config.portId : String

/-- How many units of time `Config.tickPeriodTicks` ticks last (00_scope R7, log entry 20). -/
opaque Config.tickPeriodUnits : ℕ+

/-- How many ticks last `Config.tickPeriodUnits` units of time (00_scope R7, log entry 20). -/
opaque Config.tickPeriodTicks : ℕ+

/-- `TICK_PERIOD` (00_scope R7), positive, in a unit of time that is as free as the ratio; no rule reads it
(log entry 20). -/
def Config.tickPeriod : Rat := (Config.tickPeriodUnits : Rat) / (Config.tickPeriodTicks : Rat)

end Sys2Proof
end

