-- ==== Sys2Proof/Syntax.lean ====
section
/-!
DEFINITION. What stands for the instruction set: one constructor for each row of spec/opcode_table.json
(00_scope R2, 30_encoding R104). Constants (STX, ETX, opcode, type) and the computed BCC are no operands
(30_encoding R97).
-/

namespace Sys2Proof

/-- The rows of the opcode table: three request frames, two response frames, six device error codes. -/
inductive Instr where
  /-- COMMAND request frame carrying `v` (40_frame_codec R125). -/
  | command (v : Word)
  /-- WRITE request frame carrying `v` (40_frame_codec R126). -/
  | write (v : Word)
  /-- READ request frame carrying `v` (40_frame_codec R127). -/
  | read (v : Word)
  /-- ACK response frame carrying the result `v` (40_frame_codec R133). -/
  | ack (v : Word)
  /-- NAK response frame: device error code and the reserved byte (40_frame_codec R134, 30_encoding R96). -/
  | nak (code : Byte) (reserved : Byte)
  /-- Device error code 0x02 (41_error_mapper R151). -/
  | errInvalidAddress
  /-- Device error code 0x04 (41_error_mapper R152). -/
  | errInvalidBcc
  /-- Device error code 0x05 (41_error_mapper R153). -/
  | errInvalidCommand
  /-- Device error code 0x06 (41_error_mapper R154). -/
  | errInvalidParameter
  /-- Device error code 0x07 (41_error_mapper R155). -/
  | errOutOfRange
  /-- Any other device error code (41_error_mapper R156). -/
  | errUnknown (code : Byte)
  deriving DecidableEq, Repr, Inhabited

end Sys2Proof
end

