-- ==== Sys2Proof/WellFormed.lean ====
section
/-!
DEFINITION. Which terms of `Instr` the encodings admit. Every operand of the frame rows is free (all 65536
values, 30_encoding R94, R95; any reserved byte, R96); the default row ERR_UNKNOWN applies only when no
other ERRCODE row matches (30_encoding R104).
-/

namespace Sys2Proof

/-- The five error codes that have a row of their own (30_encoding R100). -/
def isNamedCode (c : Byte) : Bool :=
  c == 0x02#8 || c == 0x04#8 || c == 0x05#8 || c == 0x06#8 || c == 0x07#8

/-- An instruction as the encodings admit it (30_encoding R94 to R96, R104). -/
def Instr.wellFormed : Instr → Bool
  | .command _ => true
  | .write _ => true
  | .read _ => true
  | .ack _ => true
  | .nak _ _ => true
  | .errInvalidAddress => true
  | .errInvalidBcc => true
  | .errInvalidCommand => true
  | .errInvalidParameter => true
  | .errOutOfRange => true
  | .errUnknown c => !isNamedCode c

end Sys2Proof
end

