-- ==== Sys2Proof/Decode.lean ====
section
/-!
DEFINITION. Bytes to instructions and back: the byte helpers of 00_scope R10, the checksum and the frame
builder of the Frame Codec (40_frame_codec R122, R124), the decoders of both directions with their rejections
by name, the Error Mapper's code table (30_encoding R100), and the encoder written from 30_encoding R91, R92.
-/

namespace Sys2Proof

/-! ### Bytes and words -/

/-- `v[15:8]` (00_scope R10). -/
def hi8 (v : Word) : Byte := v.extractLsb' 8 8

/-- `v[7:0]` (00_scope R10). -/
def lo8 (v : Word) : Byte := v.extractLsb' 0 8

/-- `zext_16(b)` (00_scope R10). -/
def zext16 (b : Byte) : Word := b.setWidth 16

/-- `(zext_16(hi) << 8) | zext_16(lo)` (30_encoding R95). -/
def join16 (hi lo : Byte) : Word := (zext16 hi <<< 8) ||| zext16 lo

/-- STX (30_encoding R101). -/
def stx : Byte := 0x02#8

/-- ETX (30_encoding R101). -/
def etx : Byte := 0x03#8

/-- The request opcodes (30_encoding R98). -/
def opCommand : Byte := 0x43#8

/-- The request opcode WRITE (30_encoding R98). -/
def opWrite : Byte := 0x57#8

/-- The request opcode READ (30_encoding R98). -/
def opRead : Byte := 0x52#8

/-- The response type ACK (30_encoding R99). -/
def typeAck : Byte := 0x06#8

/-- The response type NAK (30_encoding R99). -/
def typeNak : Byte := 0x15#8

/-- The opcodes that may be sent (30_encoding R98). -/
def legalOpcode (op : Byte) : Bool :=
  op == opCommand || op == opWrite || op == opRead

/-! ### Frames -/

/-- The bytes of a frame in the order they travel, offset 0 first (20_memory R64). -/
def Frame.toList (f : Frame) : List Byte := [f.b0, f.b1, f.b2, f.b3, f.b4, f.b5]

/-- `f[i]` (00_scope R9); offsets above 5 do not exist and read as 0x00 here. -/
def Frame.get (f : Frame) : Nat → Byte
  | 0 => f.b0
  | 1 => f.b1
  | 2 => f.b2
  | 3 => f.b3
  | 4 => f.b4
  | 5 => f.b5
  | _ => 0x00#8

/-- `f[i] <- b`; an offset above 5 does not exist and nothing is written. -/
def Frame.set (f : Frame) : Nat → Byte → Frame
  | 0, b => { f with b0 := b }
  | 1, b => { f with b1 := b }
  | 2, b => { f with b2 := b }
  | 3, b => { f with b3 := b }
  | 4, b => { f with b4 := b }
  | 5, b => { f with b5 := b }
  | _, _ => f

/-- The bytes of `bs` stored at offsets `at`, `at + 1`, ... (the loop of 42_transaction_engine R174). -/
def Frame.fill (f : Frame) (start : Nat) : List Byte → Frame
  | [] => f
  | b :: bs => Frame.fill (f.set start b) (start + 1) bs

/-- A frame as the 48-bit number of the ports of 40_frame_codec R121: offset 0 in bits 47:40. -/
def Frame.toBits (f : Frame) : BitVec 48 := f.b0 ++ f.b1 ++ f.b2 ++ f.b3 ++ f.b4 ++ f.b5

/-- Byte at `offset` of a 48-bit number, offset 0 most significant (00_scope R9). -/
def byteOfBits (w : Nat) (offset : Nat) : Byte := BitVec.ofNat 8 (w >>> (8 * (5 - offset)))

/-- The frame a 48-bit number writes (00_scope R9). -/
def Frame.ofNat (w : Nat) : Frame :=
  { b0 := byteOfBits w 0, b1 := byteOfBits w 1, b2 := byteOfBits w 2,
    b3 := byteOfBits w 3, b4 := byteOfBits w 4, b5 := byteOfBits w 5 }

/-- `calculateBCC(s)`: the running XOR, left to right, from 0x00 (40_frame_codec R122). -/
def calculateBCC (s : List Byte) : Byte := s.foldl (fun acc b => acc ^^^ b) 0x00#8

/-- A frame of the shape both directions share: framing markers, three bytes, their checksum
(30_encoding R91, R92, R97). -/
def frameWith (b1 b2 b3 : Byte) : Frame :=
  { b0 := stx, b1 := b1, b2 := b2, b3 := b3, b4 := etx, b5 := calculateBCC [b1, b2, b3] }

/-- `buildFrame(op, v)` (40_frame_codec R124), on any opcode byte (its corner case (e)). -/
def buildFrame (op : Byte) (v : Word) : Frame := frameWith op (hi8 v) (lo8 v)

/-! ### Decoders -/

/-- Why a decoder refuses bytes: the failing check, by name, with what it reports (40_frame_codec R128 to R132,
30_encoding R102). -/
inductive Reject where
  /-- Not the one length the format has (R129). -/
  | length (n : Nat)
  /-- STX or ETX is not where it must be (R130). -/
  | framing
  /-- The checksum differs (R131). -/
  | checksum (expected actual : Byte)
  /-- A response type other than ACK and NAK (R132). -/
  | respType (b : Byte)
  /-- A request opcode outside the legal set (30_encoding R98). -/
  | opcode (b : Byte)
  deriving DecidableEq, Repr

/-- The three things the table lists; the two frame formats are told apart by direction, never by content
(30_encoding R93). -/
inductive Kind where
  | request
  | response
  | errCode
  deriving DecidableEq, Repr

/-- Length, framing and checksum, in that order (40_frame_codec R128); what passes is the bytes at offsets 1 to 3. -/
def structuralCheck : List Byte → Except Reject (Byte × Byte × Byte)
  | [b0, b1, b2, b3, b4, b5] =>
    if b0 != stx || b4 != etx then .error .framing
    else if calculateBCC [b1, b2, b3] != b5 then .error (.checksum (calculateBCC [b1, b2, b3]) b5)
    else .ok (b1, b2, b3)
  | bs => .error (.length bs.length)

/-- The request an opcode byte and a value make, if the opcode is legal (30_encoding R98). -/
def decodeRequest (op : Byte) (v : Word) : Option Instr :=
  if op == opCommand then some (.command v)
  else if op == opWrite then some (.write v)
  else if op == opRead then some (.read v)
  else none

/-- A request frame (30_encoding R91, R104). -/
def decodeRequestFrame (bs : List Byte) : Except Reject Instr :=
  match structuralCheck bs with
  | .error e => .error e
  | .ok (b1, b2, b3) =>
    match decodeRequest b1 (join16 b2 b3) with
    | some i => .ok i
    | none => .error (.opcode b1)

/-- A response frame, checks in the order of 40_frame_codec R128 (30_encoding R92, R104). -/
def decodeResponse (bs : List Byte) : Except Reject Instr :=
  match structuralCheck bs with
  | .error e => .error e
  | .ok (b1, b2, b3) =>
    if b1 == typeAck then .ok (.ack (join16 b2 b3))
    else if b1 == typeNak then .ok (.nak b2 b3)
    else .error (.respType b1)

/-- A device error code: five named rows and the default row (30_encoding R100, R104). -/
def decodeErrCode (c : Byte) : Instr :=
  if c == 0x02#8 then .errInvalidAddress
  else if c == 0x04#8 then .errInvalidBcc
  else if c == 0x05#8 then .errInvalidCommand
  else if c == 0x06#8 then .errInvalidParameter
  else if c == 0x07#8 then .errOutOfRange
  else .errUnknown c

/-- The decoder, total on any bytes: the direction says which format they are read as (30_encoding R93). -/
def decode : Kind → List Byte → Except Reject Instr
  | .request, bs => decodeRequestFrame bs
  | .response, bs => decodeResponse bs
  | .errCode, [c] => .ok (decodeErrCode c)
  | .errCode, bs => .error (.length bs.length)

/-! ### Encoder -/

/-- Which format a row of the table has (its `format`: REQ, RSP or ERRCODE). -/
def Instr.kind : Instr → Kind
  | .command _ => .request
  | .write _ => .request
  | .read _ => .request
  | .ack _ => .response
  | .nak _ _ => .response
  | .errInvalidAddress => .errCode
  | .errInvalidBcc => .errCode
  | .errInvalidCommand => .errCode
  | .errInvalidParameter => .errCode
  | .errOutOfRange => .errCode
  | .errUnknown _ => .errCode

/-- The bytes of an instruction in the order they travel (30_encoding R91, R92, R100). -/
def encode : Instr → List Byte
  | .command v => (frameWith opCommand (hi8 v) (lo8 v)).toList
  | .write v => (frameWith opWrite (hi8 v) (lo8 v)).toList
  | .read v => (frameWith opRead (hi8 v) (lo8 v)).toList
  | .ack v => (frameWith typeAck (hi8 v) (lo8 v)).toList
  | .nak code reserved => (frameWith typeNak code reserved).toList
  | .errInvalidAddress => [0x02#8]
  | .errInvalidBcc => [0x04#8]
  | .errInvalidCommand => [0x05#8]
  | .errInvalidParameter => [0x06#8]
  | .errOutOfRange => [0x07#8]
  | .errUnknown c => [c]

/-! ### The opcode table's numbers -/

/-- The instruction the decoder reads from a word of the opcode table: 48-bit rows with offset 0 most significant
(00_scope R9, 30_encoding R104), 8-bit rows as the code itself. A 48-bit number is read as a request and, if it is
none, as a response; the opcodes and the types are disjoint (30_encoding R93). A wrong checksum is no frame of
any row (R104; log entry 13). -/
def decodeTableWord (nbits w : Nat) : Option Instr :=
  if nbits == 48 then
    match decode .request (Frame.ofNat w).toList with
    | .ok i => some i
    | .error _ =>
      match decode .response (Frame.ofNat w).toList with
      | .ok i => some i
      | .error _ => none
  else if nbits == 8 then
    match decode .errCode [BitVec.ofNat 8 w] with
    | .ok i => some i
    | .error _ => none
  else none

end Sys2Proof
end

