-- ==== Sys2Proof/Machine/State.lean ====
section
/-!
DEFINITION. The state of the block and of its environment (10_state R20, R30), as plain data, the reasons a step
can stop, and the state right after reset (10_state R33, 70_reset_and_hazards R250).
-/

namespace Sys2Proof.Machine

/-- `PHASE` (10_state R24); its codes for a realisation are `Phase.code` (R25). -/
inductive Phase where
  | idle
  | write
  | read
  | decode
  deriving DecidableEq, Repr, Inhabited

/-- `PEND[i]`: a request that waits for the lock (10_state R20). -/
structure Pend where
  valid : Bool
  op    : Byte
  val   : Word
  deriving DecidableEq, Repr, Inhabited

/-- `RSP[i]`: the result delivered to a caller (10_state R20, R26). -/
structure Rsp where
  valid  : Bool
  status : Status
  value  : Word
  info   : Word
  deriving DecidableEq, Repr, Inhabited

/-- The interface latches of one caller port (10_state R29). -/
structure CallerPort where
  pend : Pend
  rsp  : Rsp
  deriving DecidableEq, Repr, Inhabited

/-- The machine: the core's elements of 10_state R20, the environment's of R30, the configuration of R27, and two
fields of the model's own (`script`, `draws`; log entries 4, 5). `N_CALLERS` is the length of `callers`. -/
structure State where
  /-- `OPEN` (R28). -/
  isOpen   : Bool
  /-- `PHASE` (R24). -/
  phase    : Phase
  /-- `OWNER` (R20). -/
  owner    : Nat
  /-- `REQ_OP` (R20). -/
  reqOp    : Byte
  /-- `REQ_VAL` (R20). -/
  reqVal   : Word
  /-- `TXBUF[0..5]` (R20). -/
  txBuf    : Frame
  /-- `TXCNT` (R20). -/
  txCnt    : Nat
  /-- `RXBUF[0..5]` (R20). -/
  rxBuf    : Frame
  /-- `RXCNT` (R20). -/
  rxCnt    : Nat
  /-- `DEADLINE` (R20, 60_exceptions R226). -/
  deadline : Nat
  /-- `PEND[i]` and `RSP[i]`, by caller (R20, R29). -/
  callers  : List CallerPort
  /-- `NOW` (R30). -/
  now      : Nat
  /-- `WIRE_TX` (R30, R32). -/
  wireTx   : List Byte
  /-- `RXQ`, head first (R30, R31). -/
  rxq      : List Byte
  /-- The configuration (R27, 00_scope R7). -/
  cfg      : Params
  /-- The events still to come: the model's own field (log entry 4). -/
  script   : List Event
  /-- How many free draws were taken: the model's own field (log entry 5). -/
  draws    : Nat
  deriving DecidableEq, Repr, Inhabited

/-- The reasons a step stops with a fault. No error class of the spec is one: a failed transaction is a next
state (60_exceptions R220, R221). -/
inductive Fault where
  /-- A transaction completes and `OWNER` names no caller port, so that `RSP[OWNER]` does not exist (10_state R20:
  `OWNER` is `0..N_CALLERS-1`). Raised by `complete` only. No run from reset reaches such a state. SAFE: the model
  stops where no behaviour is described (log entry 14). -/
  | noSuchCaller
  deriving DecidableEq, Repr

/-- The reasons a step is refused. -/
inductive Refusal where
  /-- An instruction without a meaning; no arm of `exec` gives it. SAFE. -/
  | notModelled (mnemonic : String)
  deriving DecidableEq, Repr

/-- `PEND[i]` at reset: valid = 0; the payload is unspecified and named here (log entry 1). -/
def State.resetPend : Pend := { valid := false, op := 0x00#8, val := 0x0000#16 }

/-- `RSP[i]` at reset: valid = 0; the payload is unspecified and named here (log entry 1). -/
def State.resetRsp : Rsp := { valid := false, status := .ok, value := 0x0000#16, info := 0x0000#16 }

/-- A frame buffer at reset: unspecified, named here (log entry 1). -/
def State.resetFrame : Frame := ⟨0x00#8, 0x00#8, 0x00#8, 0x00#8, 0x00#8, 0x00#8⟩

/-- The state right after reset with a configuration and a number of caller ports: the values of 10_state R33, and
where the spec gives none those of log entries 1 and 2. -/
def State.resetWith (cfg : Params) (nCallers : Nat) : State where
  isOpen := false
  phase := .idle
  owner := 0
  reqOp := 0x00#8
  reqVal := 0x0000#16
  txBuf := State.resetFrame
  txCnt := 0
  rxBuf := State.resetFrame
  rxCnt := 0
  deadline := 0
  callers := List.replicate nCallers { pend := State.resetPend, rsp := State.resetRsp }
  now := 0
  wireTx := []
  rxq := []
  cfg := cfg
  script := []
  draws := 0

/-- The state right after reset (10_state R33), in the configuration of log entry 3. -/
def State.reset : State := State.resetWith Config.params Config.nCallers

end Sys2Proof.Machine
end

