-- ==== Sys2Proof/Machine/Flags.lean ====
section
/-!
DEFINITION. What stands for flags (10_state R26): the codes of the status, the phase and the category, and every
layout of the info word (60_exceptions R210, R212).
-/

namespace Sys2Proof.Machine

/-- The 4-bit status code (60_exceptions R210). -/
def statusCode : Status → BitVec 4
  | .ok => 0#4
  | .writeFailed => 1#4
  | .readFailed => 2#4
  | .timeout => 3#4
  | .length => 4#4
  | .framing => 5#4
  | .checksum => 6#4
  | .respType => 7#4
  | .device => 8#4
  | .illegalOpcode => 9#4

/-- The 2-bit code of `PHASE` (10_state R25). No rule depends on it. -/
def phaseCode : Phase → BitVec 2
  | .idle => 0#2
  | .write => 1#2
  | .read => 2#2
  | .decode => 3#2

/-- The number of a category (41_error_mapper R150), as the byte the info word carries. -/
def categoryCode : Category → Byte
  | .unknown => 0x00#8
  | .invalidAddress => 0x01#8
  | .invalidBcc => 0x02#8
  | .invalidCommand => 0x03#8
  | .invalidParameter => 0x04#8
  | .outOfRange => 0x05#8

/-- The info word of the classes that record nothing (60_exceptions R212). -/
def infoNone : Word := 0x0000#16

/-- The info word: `A` in bits 15:8, `B` in bits 7:0 (60_exceptions R212). -/
def infoWord (a b : Byte) : Word := join16 a b

/-- E_TIMEOUT in the write phase after `k` bytes (60_exceptions R212). -/
def infoTimeoutWrite (k : Nat) : Word := infoWord 0x00#8 (BitVec.ofNat 8 k)

/-- E_TIMEOUT in the read phase after `k` bytes (60_exceptions R212). -/
def infoTimeoutRead (k : Nat) : Word := infoWord 0x01#8 (BitVec.ofNat 8 k)

/-- E_LENGTH: the length offered, saturated at 0xFF (60_exceptions R212). -/
def infoLength (n : Nat) : Word := infoWord 0x00#8 (BitVec.ofNat 8 (min n 255))

/-- E_CHECKSUM: the recomputed BCC and the received one (60_exceptions R212). -/
def infoChecksum (expected actual : Byte) : Word := infoWord expected actual

/-- E_RESP_TYPE: the offending type byte (60_exceptions R212). -/
def infoRespType (b : Byte) : Word := infoWord 0x00#8 b

/-- E_DEVICE: category and raw code (60_exceptions R212, 41_error_mapper R158). -/
def infoDevice (c : Category) (code : Byte) : Word := infoWord (categoryCode c) code

/-- E_ILLEGAL_OPCODE: `zext_16(REQ_OP)` (42_transaction_engine R169). -/
def infoIllegalOpcode (op : Byte) : Word := zext16 op

/-- The class a rejected response ends in (40_frame_codec R129 to R132). `opcode` is a rejection of request frames,
which no response gives; the class named for it is the one of an opcode outside the legal set (R210). -/
def rejectStatus : Reject → Status
  | .length _ => .length
  | .framing => .framing
  | .checksum _ _ => .checksum
  | .respType _ => .respType
  | .opcode _ => .illegalOpcode

/-- The info word of a rejection (60_exceptions R212). -/
def rejectInfo : Reject → Word
  | .length n => infoLength n
  | .framing => infoNone
  | .checksum e a => infoChecksum e a
  | .respType b => infoRespType b
  | .opcode b => infoIllegalOpcode b

end Sys2Proof.Machine
end

