-- ==== Sys2Proof/Machine/Codec.lean ====
section
/-!
DEFINITION. The Frame Codec's `parseResponse` (40_frame_codec R128) and the ports of a codec that is exposed on its
own (R121), and the Device Error Mapper's `category` and `describe` (41_error_mapper R150).
-/

namespace Sys2Proof.Machine

/-- `category(code)` (41_error_mapper R150). -/
def category (code : Byte) : Category :=
  if code = 0x02#8 then .invalidAddress
  else if code = 0x04#8 then .invalidBcc
  else if code = 0x05#8 then .invalidCommand
  else if code = 0x06#8 then .invalidParameter
  else if code = 0x07#8 then .outOfRange
  else .unknown

/-- One upper-case hexadecimal digit (30_encoding R108). -/
def hexDigit (n : Nat) : Char :=
  if n < 10 then Char.ofNat (48 + n) else Char.ofNat (55 + n)

/-- `hex2(code)`: two upper-case hexadecimal digits (30_encoding R108, 41_error_mapper R150). -/
def hex2 (code : Byte) : String := String.ofList [hexDigit (code.toNat / 16), hexDigit (code.toNat % 16)]

/-- `describe(code)` (41_error_mapper R150): the text a presentation layer gives. -/
def describe (code : Byte) : String :=
  match category code with
  | .invalidAddress => Config.txt02
  | .invalidBcc => Config.txt04
  | .invalidCommand => Config.txt05
  | .invalidParameter => Config.txt06
  | .outOfRange => "invalid setting value (out-of-range specified)"
  | .unknown => "unknown error code " ++ hex2 code

/-- The text of a delivered result (30_encoding R107): the device errors' by `describe` on the raw code; of every other
error the fragment the source gives and its variable part, among words that are free. The free words may depend on the info
word, so it is open whether a timeout names its phase, a length error its length and an invalid type its byte. That both
checksums stand after "checksum mismatch", the expected one first, is the model's choice. All this is log entry 15. OK has
no text. -/
def resultText (r : Result) : Option String :=
  let words := Config.wording r.status r.info
  match r.status with
  | .ok => none
  | .writeFailed => some (words 0 ++ "write failed" ++ words 1)
  | .readFailed => some (words 0 ++ "read failed" ++ words 1)
  | .timeout => some (words 0 ++ ("timeout after " ++ Nat.repr (lo8 r.info).toNat ++ "/6 bytes") ++ words 1)
  | .length => some (words 0 ++ "a length error" ++ words 1)
  | .framing => some (words 0 ++ "framing error" ++ words 1)
  | .checksum =>
    some (words 0 ++ "checksum mismatch" ++ words 1 ++ Config.byteText (hi8 r.info) ++ words 2
      ++ Config.byteText (lo8 r.info) ++ words 3)
  | .respType => some (words 0 ++ "invalid response type" ++ words 1)
  | .device => some (describe (lo8 r.info))
  | .illegalOpcode => some (words 0 ++ Config.byteText (lo8 r.info) ++ words 1)

/-- `Err(class, info)` as a delivered result: the value is 0x0000 (60_exceptions R212). -/
def errResult (st : Status) (info : Word) : Result := { status := st, value := 0x0000#16, info := info }

/-- `Ok(v)` as a delivered result. -/
def okResult (v : Word) : Result := { status := .ok, value := v, info := infoNone }

/-- The bytes of `s` at offset `i`; read only where the length check has passed. -/
def byteAt (s : List Byte) (i : Nat) : Byte := s.getD i 0x00#8

/-- `parseResponse(s)`: the checks in the order of 40_frame_codec R128, the first that fails decides. -/
def parseResponse (s : List Byte) : Result :=
  if s.length ≠ frameLen then errResult .length (infoLength s.length)
  else if byteAt s 0 ≠ stx ∨ byteAt s 4 ≠ etx then errResult .framing infoNone
  else if calculateBCC [byteAt s 1, byteAt s 2, byteAt s 3] ≠ byteAt s 5 then
    errResult .checksum (infoChecksum (calculateBCC [byteAt s 1, byteAt s 2, byteAt s 3]) (byteAt s 5))
  else if byteAt s 1 = typeAck then okResult (join16 (byteAt s 2) (byteAt s 3))
  else if byteAt s 1 = typeNak then errResult .device (infoDevice (category (byteAt s 2)) (byteAt s 2))
  else errResult .respType (infoRespType (byteAt s 1))

/-- `bf_frame` for `bf_op`, `bf_val` (40_frame_codec R121). -/
def bfFrame (bfOp : Byte) (bfVal : Word) : BitVec 48 := (buildFrame bfOp bfVal).toBits

/-- `pr_status`, `pr_value`, `pr_info` for `pr_len`, `pr_buf` (40_frame_codec R121): with a length other than 6 no
byte of the buffer is examined (R129). -/
def prResult (prLen : Nat) (prBuf : BitVec 48) : Result :=
  if prLen = frameLen then parseResponse (Frame.ofNat prBuf.toNat).toList
  else errResult .length (infoLength prLen)

/-- `pr_status` as the 4-bit code (40_frame_codec R121, 60_exceptions R210). -/
def prStatus (prLen : Nat) (prBuf : BitVec 48) : BitVec 4 := statusCode (prResult prLen prBuf).status

end Sys2Proof.Machine
end

