-- ==== Sys2Proof/Machine/Operands.lean ====
section
/-!
DEFINITION. The operands of a step: the caller ports it reads, the bytes an attempt offers or asks for, and the
draws of the environment cut to the range their rules give them (20_memory R68, R72 to R74).
-/

namespace Sys2Proof.Machine

/-- `PEND[i]`, where there is a port `i`. -/
def pendOf (i : Nat) (s : State) : Option Pend := s.callers[i]?.map (·.pend)

/-- `RSP[i]`, where there is a port `i`. -/
def rspOf (i : Nat) (s : State) : Option Rsp := s.callers[i]?.map (·.rsp)

/-- Caller `i` waits for the lock: `PEND[i].valid = 1` (42_transaction_engine R168). -/
def waits (i : Nat) (s : State) : Bool :=
  match pendOf i s with
  | some p => p.valid
  | none => false

/-- `RSP[i].valid = 1` (42_transaction_engine R182). -/
def rspWaits (i : Nat) (s : State) : Bool :=
  match rspOf i s with
  | some r => r.valid
  | none => false

/-- Caller `i` owns the transaction in flight (20_memory R80). -/
def inFlight (i : Nat) (s : State) : Bool := s.phase != .idle && s.owner == i

/-- The enabling condition of a request step of caller `i`: a port, and no call outstanding
(42_transaction_engine R167). -/
def mayRequest (i : Nat) (s : State) : Bool :=
  decide (i < s.callers.length) && !waits i s && !inFlight i s && !rspWaits i s

/-- The enabling condition of a grant to caller `i` (42_transaction_engine R168). -/
def mayGrant (i : Nat) (s : State) : Bool := s.isOpen && s.phase == .idle && waits i s

/-- `expired`: `NOW >= DEADLINE` (42_transaction_engine R171). -/
def expired (s : State) : Bool := decide (s.deadline ≤ s.now)

/-- `TXBUF[TXCNT .. 5]`: what a write attempt offers (42_transaction_engine R173). -/
def offered (s : State) : List Byte := s.txBuf.toList.drop s.txCnt

/-- How many bytes a write attempt moves when the draw is `n` (20_memory R72). -/
def writeCount (n : Nat) (s : State) : Nat := min n (min (offered s).length s.cfg.maxXfer)

/-- `6 - RXCNT`: what a read attempt asks for (42_transaction_engine R174). -/
def missing (s : State) : Nat := frameLen - s.rxCnt

/-- How many bytes a read attempt delivers when the draw is `n` (20_memory R73). -/
def readCount (n : Nat) (s : State) : Nat := min n (min (missing s) (min s.cfg.maxXfer s.rxq.length))

/-- How long a write attempt lasts when the draw is `d` (00_scope R7 `T_CHWRITE`, 20_memory R74). -/
def writeDuration (d : Nat) (s : State) : Nat :=
  match s.cfg.tChWrite with
  | some bound => min d bound
  | none => d

/-- How long a read attempt lasts when the draw is `d` (20_memory R74). -/
def readDuration (d : Nat) (s : State) : Nat := min d s.cfg.tChRead

/-- How far `NOW` advances between two steps when the draw is `k`: by any amount while no transaction is in flight, and
else by what the duration of an attempt admits (20_memory R76, 42_transaction_engine R192): that of an attempt that moves
nothing (R177), so by nothing once the deadline has passed or in the decode phase, where no attempt is made. A write
attempt without a bound may be in progress at any time (R187; log entry 24). -/
def admittedTime (k : Nat) (s : State) : Nat :=
  match s.phase with
  | .idle => k
  | .write =>
    match s.cfg.tChWrite with
    | some _ => if expired s then 0 else writeDuration k s
    | none => k
  | .read => if expired s then 0 else readDuration k s
  | .decode => 0

end Sys2Proof.Machine
end

