-- ==== Sys2Proof/Machine/Ops.lean ====
section
/-!
DEFINITION. The named operations over the state that every meaning and every step is built from: the latches of the
caller ports, the grant's latching, the start of a transaction, the two channel primitives, completion (what
stands for taking an exception, 60_exceptions R220), and reset.
-/

namespace Sys2Proof.Machine

/-- The outcomes of this machine. -/
abbrev Out := Host.Outcome State Fault Refusal

/-- What follows an outcome: `f` on a next state, nothing after a stop. -/
def andThen (o : Out) (f : State → Out) : Out :=
  match o with
  | .next t => f t
  | .fault r => .fault r
  | .refused r => .refused r

/-- `PEND[i] <- p`. -/
def setPend (i : Nat) (p : Pend) (s : State) : State :=
  { s with callers := s.callers.modify i (fun c => { c with pend := p }) }

/-- `RSP[i] <- r`. -/
def setRsp (i : Nat) (r : Rsp) (s : State) : State :=
  { s with callers := s.callers.modify i (fun c => { c with rsp := r }) }

/-- `complete(status, value, info)`: deliver the result to the owner and release the lock
(42_transaction_engine R181, 60_exceptions R220). Nothing else is done. -/
def complete (r : Result) (s : State) : Out :=
  if s.owner < s.callers.length then
    .next { setRsp s.owner { valid := true, status := r.status, value := r.value, info := r.info } s with
      phase := .idle }
  else .fault .noSuchCaller

/-- `complete` with an error class: the value is 0x0000 (42_transaction_engine R181). -/
def fail (st : Status) (info : Word) (s : State) : Out :=
  complete { status := st, value := 0x0000#16, info := info } s

/-- `complete(OK, value = v)` (42_transaction_engine R180). -/
def succeed (v : Word) (s : State) : Out :=
  complete { status := .ok, value := v, info := infoNone } s

/-- The opening part of a grant to caller `i` whose request is `p`: `OWNER`, `REQ_OP`, `REQ_VAL`,
`PEND[i].valid <- 0` (42_transaction_engine R168). -/
def latchRequest (i : Nat) (p : Pend) (s : State) : State :=
  { setPend i { p with valid := false } s with owner := i, reqOp := p.op, reqVal := p.val }

/-- The rest of a grant with a legal opcode: the frame is built, the counts cleared, the deadline set, and the write
phase begins (42_transaction_engine R168, R170). `REQ_OP` and `REQ_VAL` hold the request (R168). -/
def startTransaction (op : Byte) (v : Word) (s : State) : State :=
  { s with
    reqOp := op
    reqVal := v
    txBuf := buildFrame op v
    txCnt := 0
    rxCnt := 0
    deadline := s.now + s.cfg.tDeadline
    phase := .write }

/-- What stands for `send` of a legal opcode reaching its grant: with the channel open and the lock free the
transaction starts; otherwise the call waits and nothing changes (42_transaction_engine R168, 20_memory R80). -/
def beginSend (op : Byte) (v : Word) (s : State) : Out :=
  if s.isOpen && s.phase == .idle then .next (startTransaction op v s) else .next s

/-- `ChWrite` of the remaining bytes, of which the channel accepts `k` in `d` ticks (42_transaction_engine R175). -/
def chWrite (k : Nat) (d : Nat) (s : State) : State :=
  { s with wireTx := s.wireTx ++ (offered s).take k, now := s.now + d }

/-- `ChRead` delivering `k` bytes in `d` ticks: they leave the head of `RXQ` (42_transaction_engine R176). -/
def chRead (k : Nat) (d : Nat) (s : State) : State :=
  { s with rxq := s.rxq.drop k, now := s.now + d }

/-- The count of accepted bytes goes up by `k`; the sixth ends the write phase (42_transaction_engine R173). -/
def countSent (k : Nat) (s : State) : State :=
  { s with txCnt := s.txCnt + k, phase := if s.txCnt + k = frameLen then .read else s.phase }

/-- The bytes `r` go to `RXBUF` from `RXCNT` on; the sixth ends the read phase (42_transaction_engine R174). -/
def storeReply (r : List Byte) (s : State) : State :=
  { s with
    rxBuf := s.rxBuf.fill s.rxCnt r
    rxCnt := s.rxCnt + r.length
    phase := if s.rxCnt + r.length = frameLen then .decode else s.phase }

/-- `NOW` goes up by `k` (20_memory R76); how far it may is `admittedTime`. -/
def advanceTime (k : Nat) (s : State) : State := { s with now := s.now + k }

/-- The device appends `bs` to `RXQ` (20_memory R75). -/
def appendRxq (bs : List Byte) (s : State) : State := { s with rxq := s.rxq ++ bs }

/-- An unspecified frame buffer after `rst`: six free bytes (10_state R33, log entry 6). -/
def freeFrame (draw place : Nat) : Frame :=
  { b0 := Config.freeByte draw place, b1 := Config.freeByte draw (place + 1),
    b2 := Config.freeByte draw (place + 2), b3 := Config.freeByte draw (place + 3),
    b4 := Config.freeByte draw (place + 4), b5 := Config.freeByte draw (place + 5) }

/-- A caller port after `rst`: both latches invalid, their payload free (10_state R33, log entry 6). -/
def freePort (draw i : Nat) : CallerPort :=
  { pend := { valid := false, op := Config.freeByte draw (13 + i), val := Config.freeWord draw (3 * i + 1) },
    rsp := { valid := false, status := Config.freeStatus draw i,
             value := Config.freeWord draw (3 * i + 2), info := Config.freeWord draw (3 * i + 3) } }

/-- `rst = 1` at an edge: every element of the core takes its reset value, the unspecified ones a free value; the
environment (`NOW`, `WIRE_TX`, `RXQ`, configuration) keeps what it has (70_reset_and_hazards R250, R251). -/
def resetCore (s : State) : State :=
  { s with
    isOpen := false
    phase := .idle
    owner := Config.freeNat s.draws 0
    reqOp := Config.freeByte s.draws 0
    reqVal := Config.freeWord s.draws 0
    txBuf := freeFrame s.draws 1
    txCnt := 0
    rxBuf := freeFrame s.draws 7
    rxCnt := 0
    deadline := Config.freeNat s.draws 1
    callers := (List.range s.callers.length).map (freePort s.draws)
    draws := s.draws + 1 }

end Sys2Proof.Machine
end

