-- ==== Sys2Proof/Machine/Request.lean ====
section
/-!
DEFINITION. The meanings of the request rows: what the grant does for each opcode once the request is latched
(42_transaction_engine R168, R179; 40_frame_codec R125 to R127). The bytes themselves travel in the write steps
that follow (Machine/Sequencer.lean).
-/

namespace Sys2Proof.Machine

/-- COMMAND (40_frame_codec R125, 42_transaction_engine R168). -/
def execCommand (v : Word) (s : State) : Out := beginSend opCommand v s

/-- WRITE (40_frame_codec R126, 42_transaction_engine R168). -/
def execWrite (v : Word) (s : State) : Out := beginSend opWrite v s

/-- READ (40_frame_codec R127, 42_transaction_engine R168). -/
def execRead (v : Word) (s : State) : Out := beginSend opRead v s

end Sys2Proof.Machine
end

