-- ==== Sys2Proof/Machine/DeviceError.lean ====
section
/-!
DEFINITION. The meanings of the device error code rows (41_error_mapper R151 to R156): the Error Mapper's part of a
NAK's completion. A code is met only in the decode step of a NAK; in any other phase nothing happens
(42_transaction_engine R172).
-/

namespace Sys2Proof.Machine

/-- A device error of category `c` with raw code `code` ends the transaction in the decode step
(40_frame_codec R134, 42_transaction_engine R180, 60_exceptions R212). -/
def deviceError (c : Category) (code : Byte) (s : State) : Out :=
  if s.phase == .decode then fail .device (infoDevice c code) s else .next s

/-- Code 0x02 (41_error_mapper R151). -/
def execErrInvalidAddress (s : State) : Out := deviceError .invalidAddress 0x02#8 s

/-- Code 0x04 (41_error_mapper R152). -/
def execErrInvalidBcc (s : State) : Out := deviceError .invalidBcc 0x04#8 s

/-- Code 0x05 (41_error_mapper R153). -/
def execErrInvalidCommand (s : State) : Out := deviceError .invalidCommand 0x05#8 s

/-- Code 0x06 (41_error_mapper R154). -/
def execErrInvalidParameter (s : State) : Out := deviceError .invalidParameter 0x06#8 s

/-- Code 0x07 (41_error_mapper R155). -/
def execErrOutOfRange (s : State) : Out := deviceError .outOfRange 0x07#8 s

/-- Any other code (41_error_mapper R156). -/
def execErrUnknown (code : Byte) (s : State) : Out := deviceError .unknown code s

end Sys2Proof.Machine
end

