-- ==== Sys2Proof/Machine/Response.lean ====
section
/-!
DEFINITION. The meanings of the response rows: the decode step's completion for a reply that passed every check
(42_transaction_engine R180; 40_frame_codec R133, R134). Outside the decode phase a reply waits and nothing
happens (42_transaction_engine R172).
-/

namespace Sys2Proof.Machine

/-- ACK: the transaction succeeds with the two data bytes as its result (40_frame_codec R133, 42_transaction_engine R180). -/
def execAck (v : Word) (s : State) : Out :=
  if s.phase == .decode then succeed v s else .next s

/-- NAK: the device error is built from byte 2 through the Error Mapper's rows, one for each category; byte 3 is not
examined (40_frame_codec R134, 30_encoding R96, 41_error_mapper R157). -/
def execNak (code _reserved : Byte) (s : State) : Out :=
  match category code with
  | .invalidAddress => execErrInvalidAddress s
  | .invalidBcc => execErrInvalidBcc s
  | .invalidCommand => execErrInvalidCommand s
  | .invalidParameter => execErrInvalidParameter s
  | .outOfRange => execErrOutOfRange s
  | .unknown => execErrUnknown code s

end Sys2Proof.Machine
end

