-- ==== Sys2Proof/Machine/Dispatch.lean ====
section
/-! DEFINITION. One arm for each row of the opcode table: the meaning it calls. -/

namespace Sys2Proof.Machine

def exec (i : Instr) (s : State) : Host.Outcome State Fault Refusal :=
  match i with
  | .command v => Sys2Proof.Machine.execCommand v s
  | .write v => Sys2Proof.Machine.execWrite v s
  | .read v => Sys2Proof.Machine.execRead v s
  | .ack v => Sys2Proof.Machine.execAck v s
  | .nak code reserved => Sys2Proof.Machine.execNak code reserved s
  | .errInvalidAddress => Sys2Proof.Machine.execErrInvalidAddress s
  | .errInvalidBcc => Sys2Proof.Machine.execErrInvalidBcc s
  | .errInvalidCommand => Sys2Proof.Machine.execErrInvalidCommand s
  | .errInvalidParameter => Sys2Proof.Machine.execErrInvalidParameter s
  | .errOutOfRange => Sys2Proof.Machine.execErrOutOfRange s
  | .errUnknown code => Sys2Proof.Machine.execErrUnknown code s

end Sys2Proof.Machine
end

