-- ==== Sys2Proof/Machine/Sequencer.lean ====
section
/-!
DEFINITION. The steps of the core (42_transaction_engine R168 to R180): the grant, which reads the waiting request
and runs its row; the write and read steps; the decode step, which reads the reply in `RXBUF` and runs its row.
A step whose enabling condition fails changes nothing (R172; log entry 7).
-/

namespace Sys2Proof.Machine

/-- Grant step to caller `i` (42_transaction_engine R168): latch the request, then run its row, or refuse an illegal
opcode at once (R169). -/
def grantStep (i : Nat) (s : State) : Out :=
  if mayGrant i s then
    match pendOf i s with
    | none => .next s
    | some p =>
      match decodeRequest p.op p.val with
      | some instr => exec instr (latchRequest i p s)
      | none => fail .illegalOpcode (infoIllegalOpcode p.op) (latchRequest i p s)
  else .next s

/-- Write step (42_transaction_engine R173): deadline, then the attempt's failure, then the count (60_exceptions R217).
Bytes a failing attempt accepted are on the wire all the same (R178). -/
def writeStep (n : Nat) (err : Xfer) (dur : Nat) (s : State) : Out :=
  if s.phase == .write then
    if expired s then fail .timeout (infoTimeoutWrite s.txCnt) s
    else
      match err with
      | .fail => fail .writeFailed infoNone (chWrite (writeCount n s) (writeDuration dur s) s)
      | .ok => .next (countSent (writeCount n s) (chWrite (writeCount n s) (writeDuration dur s) s))
  else .next s

/-- Read step (42_transaction_engine R174): deadline, then the attempt's failure, then the bytes. Bytes a failing attempt
delivered are dropped (R178). -/
def readStep (n : Nat) (err : Xfer) (dur : Nat) (s : State) : Out :=
  if s.phase == .read then
    if expired s then fail .timeout (infoTimeoutRead s.rxCnt) s
    else
      match err with
      | .fail => fail .readFailed infoNone (chRead (readCount n s) (readDuration dur s) s)
      | .ok => .next (storeReply (s.rxq.take (readCount n s)) (chRead (readCount n s) (readDuration dur s) s))
  else .next s

/-- Decode step (42_transaction_engine R180): the reply's row runs, or the first failing check is reported. The deadline
is not tested and the channel is not touched. -/
def decodeStep (s : State) : Out :=
  if s.phase == .decode then
    match decodeResponse s.rxBuf.toList with
    | .ok instr => exec instr s
    | .error e => fail (rejectStatus e) (rejectInfo e) s
  else .next s

end Sys2Proof.Machine
end

