-- ==== Sys2Proof/Machine/Environment.lean ====
section
/-!
DEFINITION. The moves of the agents outside the core (42_transaction_engine R166, R167, R182, R192;
70_reset_and_hazards R252) and the one function that carries out any move of a run (R191).
-/

namespace Sys2Proof.Machine

/-- `open`: once between resets (42_transaction_engine R166). -/
def openStep (s : State) : State := if s.isOpen then s else { s with isOpen := true }

/-- Channel construction and configuration, before `open` only (70_reset_and_hazards R252; 10_state R27: fixed while
`OPEN = 1`; log entry 16). -/
def configureStep (c : Params) (s : State) : State := if s.isOpen then s else { s with cfg := c }

/-- Request step of caller `i` (42_transaction_engine R167); an offer while a call is outstanding is ignored (R192). -/
def requestStep (i : Nat) (op : Byte) (val : Word) (s : State) : State :=
  if mayRequest i s then setPend i { valid := true, op := op, val := val } s else s

/-- Response step of caller `i` (42_transaction_engine R182). -/
def responseStep (i : Nat) (s : State) : State :=
  match rspOf i s with
  | some r => if r.valid then setRsp i { r with valid := false } s else s
  | none => s

/-- One move of a run (42_transaction_engine R191). -/
def runMove (m : Move) (s : State) : Out :=
  match m with
  | .reset => .next (resetCore s)
  | .configure c => .next (configureStep c s)
  | .openChannel => .next (openStep s)
  | .request i op val => .next (requestStep i op val s)
  | .grant i => grantStep i s
  | .write n err dur => writeStep n err dur s
  | .read n err dur => readStep n err dur s
  | .decode => decodeStep s
  | .response i => .next (responseStep i s)
  | .device bs => .next (appendRxq bs s)
  | .advance k => .next (advanceTime (admittedTime k s) s)

/-- Several moves one after another, stopping at the first that stops. -/
def runMoves : List Move → State → Out
  | [], s => .next s
  | m :: ms, s => andThen (runMove m s) (runMoves ms)

end Sys2Proof.Machine
end

