-- ==== Sys2Proof/Machine/Clocked.lean ====
section
/-!
DEFINITION. The clocked port binding (42_transaction_engine R186, R189, R190): the output ports as functions of the
state, and a clock edge as the moves of the abstract semantics it stands for ("this binding is one instance of them",
R186). Every enabling condition of an edge is sampled before the edge (log entry 10).
-/

namespace Sys2Proof.Machine

/-- `tx_valid` (42_transaction_engine R190; 0 while `rst = 1`, 70_reset_and_hazards R250). -/
def txValid (rst : Bool) (s : State) : Bool := !rst && s.phase == .write && !expired s

/-- `tx_data` when `tx_valid = 1`: `TXBUF[TXCNT]` (42_transaction_engine R190). -/
def txData (s : State) : Byte := s.txBuf.get s.txCnt

/-- `rx_ready` (42_transaction_engine R190; 0 while `rst = 1`, 70_reset_and_hazards R250). -/
def rxReady (rst : Bool) (s : State) : Bool := !rst && s.phase == .read && !expired s

/-- `req_ready[i]` (42_transaction_engine R189; 0 while `rst = 1`, 70_reset_and_hazards R250). -/
def reqReady (rst : Bool) (i : Nat) (s : State) : Bool := !rst && mayRequest i s

/-- `rsp_valid[i]` (42_transaction_engine R189; 0 while `rst = 1`, 70_reset_and_hazards R250). -/
def rspValid (rst : Bool) (i : Nat) (s : State) : Bool := !rst && rspWaits i s

/-- `rsp_status[i]`, where there is a port `i` (42_transaction_engine R189). -/
def rspStatus (i : Nat) (s : State) : Option (BitVec 4) := (rspOf i s).map (fun r => statusCode r.status)

/-- `rsp_value[i]`, where there is a port `i` (42_transaction_engine R189). -/
def rspValue (i : Nat) (s : State) : Option Word := (rspOf i s).map (fun r => r.value)

/-- `rsp_info[i]`, where there is a port `i` (42_transaction_engine R189). -/
def rspInfo (i : Nat) (s : State) : Option Word := (rspOf i s).map (fun r => r.info)

/-- The caller the arbiter grants at an edge: the one drawn if it waits, else the first that waits, since at an edge a
grant is made if one is enabled (42_transaction_engine R168, R186). -/
def arbiter (draw : Nat) (s : State) : Option Nat :=
  if waits draw s then some draw else (List.range s.callers.length).find? (fun i => waits i s)

/-- The answer `(n, err)` of a handshake: one byte if ready, failed if the error flag is up (42_transaction_engine R190). -/
def handshakeCount (ready : Bool) : Nat := if ready then 1 else 0

/-- The `err` half of a handshake's answer (42_transaction_engine R190). -/
def handshakeErr (err : Bool) : Xfer := if err then .fail else .ok

/-- The core's step at an edge, chosen by `PHASE` (42_transaction_engine R186). The tick the step lasts is the edge's own. -/
def coreMove (p : PortsIn) (s : State) : List Move :=
  match s.phase with
  | .idle =>
    match (if s.isOpen then arbiter p.arb s else none) with
    | some i => [.grant i]
    | none => []
  | .write => [.write (handshakeCount p.txReady) (handshakeErr p.txErr) 0]
  | .read => [.read (handshakeCount p.rxValid) (handshakeErr p.rxErr) 0]
  | .decode => [.decode]

/-- The `open` step of an edge (42_transaction_engine R189). -/
def openMove (p : PortsIn) (s : State) : List Move := if p.openReq && !s.isOpen then [.openChannel] else []

/-- The request step of caller `i` at an edge (42_transaction_engine R189). -/
def requestMove (p : PortsIn) (s : State) (i : Nat) : List Move :=
  match p.req[i]? with
  | some (some (op, val)) => if reqReady p.rst i s then [.request i op val] else []
  | _ => []

/-- The response step of caller `i` at an edge (42_transaction_engine R189). -/
def responseMove (p : PortsIn) (s : State) (i : Nat) : List Move :=
  if rspValid p.rst i s && p.rspReady.getD i false then [.response i] else []

/-- What the ports ask for at an edge beside the core's step: `open`, responses taken, requests made
(42_transaction_engine R186, R189). -/
def portMoves (p : PortsIn) (s : State) : List Move :=
  openMove p s ++ (List.range s.callers.length).flatMap (responseMove p s)
    ++ (List.range s.callers.length).flatMap (requestMove p s)

/-- The moves of one edge: with `rst = 1` the reset and no step of the core or of a caller, otherwise at most one step of
the core and whatever the ports ask for (42_transaction_engine R186, 70_reset_and_hazards R250). -/
def edgeMoves (p : PortsIn) (s : State) : List Move :=
  if p.rst then [.reset] else coreMove p s ++ portMoves p s

/-- What ends every edge: the device's bytes arrive and `NOW` goes up by one, whatever the phase: in this binding every
step lasts exactly one tick (42_transaction_engine R186; log entries 10, 17). -/
def endEdge (p : PortsIn) (s : State) : State := advanceTime 1 (appendRxq p.device s)

/-- One rising edge of `clk` (42_transaction_engine R186). -/
def clockEdge (p : PortsIn) (s : State) : Out := andThen (runMoves (edgeMoves p s) s) (fun u => .next (endEdge p u))

end Sys2Proof.Machine
end

