-- ==== Sys2Proof/Machine/Fetch.lean ====
section
/-!
DEFINITION. What the next step takes (log entries 4, 5), how it is carried out, and where an instruction must lie for the
very next step to run it (log entry 11): a request in `PEND[0]` with its grant next, a reply in `RXBUF` with the
decode step next.
-/

namespace Sys2Proof.Machine

/-- The event the next step takes: the first listed, or a free one (log entries 4, 5). -/
def nextEvent (s : State) : Event :=
  match s.script with
  | e :: _ => e
  | [] => Config.freeEvent s.draws

/-- The state once the next event is taken off: the list is shorter, or one more draw is counted. -/
def takeEvent (s : State) : State :=
  match s.script with
  | _ :: rest => { s with script := rest }
  | [] => { s with draws := s.draws + 1 }

/-- An event carried out: a move of the abstract semantics or an edge of the clock. -/
def runEvent (e : Event) (s : State) : Out :=
  match e with
  | .move m => runMove m s
  | .edge p => clockEdge p s

/-- A request waiting at caller 0, with the channel open, the lock free and its grant next. -/
def placeRequest (op : Byte) (v : Word) (s : State) : State :=
  { setPend 0 { valid := true, op := op, val := v } s with
    isOpen := true, phase := .idle, script := .move (.grant 0) :: s.script }

/-- Six bytes received as a reply, with the decode step next. -/
def placeReply (f : Frame) (s : State) : State :=
  { s with phase := .decode, txCnt := frameLen, rxBuf := f, rxCnt := frameLen, script := .move .decode :: s.script }

/-- The instruction of an opcode-table word placed where the next step takes it: a request frame's opcode and value at a
caller port; a response frame, or any other six bytes, in the reply buffer; an error code as byte 2 of a NAK. -/
def placeTableWord (nbits w : Nat) (s : State) : State :=
  if nbits == 8 then placeReply (frameWith typeNak (BitVec.ofNat 8 w) 0x00#8) s
  else
    match decodeRequestFrame (Frame.ofNat w).toList with
    | .ok _ => placeRequest (Frame.ofNat w).b1 (join16 (Frame.ofNat w).b2 (Frame.ofNat w).b3) s
    | .error _ => placeReply (Frame.ofNat w) s

end Sys2Proof.Machine
end

