-- ==== Sys2Proof/Machine/Step.lean ====
section
/-!
DEFINITION. One step of the machine: the next event of the run is taken and carried out (42_transaction_engine R191),
and the host's way to have a given instruction run next.
-/

namespace Sys2Proof.Machine

/-- One step (42_transaction_engine R191): in the grant and in the decode step the instruction that is read runs
through `exec`. -/
def step (s : State) : Host.Outcome State Fault Refusal := runEvent (nextEvent s) (takeEvent s)

/-- `s` with the instruction of an opcode-table word where the next step fetches it (log entry 11). -/
def State.withFetchWord (s : State) (nbits w : Nat) : State := placeTableWord nbits w s

end Sys2Proof.Machine
end

