-- ==== Sys2Proof/Safety.lean ====
section
/-!
DEFINITION. The terms claims about the block are stated in: the invariant of its reachable states (10_state R22),
quiescent and settled states (42_transaction_engine R191), agreement of two states up to data no rule reads
(10_state R22(a), R23), the serialisation of the transmit stream (20_memory R70), runs, and the named premises (R193).
-/

namespace Sys2Proof.Machine

/-! ### The invariant -/

/-- The counts stay within 0..6 (10_state R20). -/
abbrev CountsOk (s : State) : Prop := s.txCnt ≤ frameLen ∧ s.rxCnt ≤ frameLen

/-- The counts of each phase (10_state R22 (b) to (d)). -/
abbrev PhaseOk (s : State) : Prop :=
  (s.phase = .write → s.txCnt ≤ 5 ∧ s.rxCnt = 0) ∧
  (s.phase = .read → s.txCnt = 6 ∧ s.rxCnt ≤ 5) ∧
  (s.phase = .decode → s.txCnt = 6 ∧ s.rxCnt = 6)

/-- The frame in flight is the one built from a legal request (10_state R22 (e)). -/
abbrev FrameOk (s : State) : Prop :=
  s.phase ≠ .idle → legalOpcode s.reqOp = true ∧ s.txBuf = buildFrame s.reqOp s.reqVal

/-- The owner of the transaction in flight is a caller of an open channel with no other call outstanding
(10_state R20, 42_transaction_engine R167, R168). -/
abbrev OwnerOk (s : State) : Prop :=
  s.phase ≠ .idle → s.isOpen = true ∧ s.owner < s.callers.length ∧ waits s.owner s = false ∧ rspWaits s.owner s = false

/-- No caller has both a waiting request and an undelivered response (42_transaction_engine R167). -/
abbrev PortsOk (s : State) : Prop := ∀ c ∈ s.callers, c.pend.valid = true → c.rsp.valid = false

/-- There is a caller port: `N_CALLERS >= 1` (00_scope R7). -/
abbrev CallersOk (s : State) : Prop := 1 ≤ s.callers.length

/-- The invariant of the machine: 10_state R22 (b) to (e), what R167 and R168 add to it, and the range of `N_CALLERS`. -/
abbrev Coherent (s : State) : Prop :=
  CountsOk s ∧ PhaseOk s ∧ FrameOk s ∧ OwnerOk s ∧ PortsOk s ∧ CallersOk s

/-- A transaction in flight is past its deadline by no more than the longest attempt (42_transaction_engine R187,
60_exceptions R229), where a write attempt has a bound. -/
abbrev Timely (s : State) : Prop :=
  s.phase ≠ .idle → ∀ b ∈ s.cfg.tChWrite, s.now ≤ s.deadline + max s.cfg.tChRead b

/-! ### Points of a run -/

/-- No step of the arbiter or the sequencer is enabled (42_transaction_engine R191). -/
abbrev Quiescent (s : State) : Prop :=
  s.phase = .idle ∧ (s.isOpen = false ∨ ∀ c ∈ s.callers, c.pend.valid = false)

/-- Every call made has been granted, completed and its response taken (42_transaction_engine R191). -/
abbrev Settled (s : State) : Prop :=
  Quiescent s ∧ s.isOpen = true ∧ (∀ c ∈ s.callers, c.pend.valid = false) ∧ ∀ c ∈ s.callers, c.rsp.valid = false

/-- A step of the sequencer that the phase enables (42_transaction_engine R173, R174, R180), or a clock edge without
reset, which makes it (R186). -/
def sequencerEvent (s : State) : Bool :=
  match nextEvent s with
  | .move (.write _ _ _) => s.phase == .write
  | .move (.read _ _ _) => s.phase == .read
  | .move .decode => s.phase == .decode
  | .edge p => !p.rst && s.phase != .idle
  | _ => false

/-- The next event is a reset. -/
def resetEvent (s : State) : Bool :=
  match nextEvent s with
  | .move .reset => true
  | .edge p => p.rst
  | _ => false

/-- An edge of the clock with `rst = 0`. -/
def isEdge : Event → Bool
  | .edge p => !p.rst
  | .move _ => false

/-! ### Data that no rule reads -/

/-- What is read while the lock is free (10_state R22 (a)), with the environment and the model's own fields. -/
abbrev SameVisible (s t : State) : Prop :=
  s.isOpen = t.isOpen ∧ s.phase = t.phase ∧ s.callers = t.callers ∧ s.now = t.now ∧ s.wireTx = t.wireTx ∧
  s.rxq = t.rxq ∧ s.cfg = t.cfg ∧ s.script = t.script ∧ s.draws = t.draws

/-- What is read besides while a transaction is in flight: the owner, the frame, the counts, the deadline, and the
reply bytes received so far. `REQ_OP` and `REQ_VAL` are not among them (42_transaction_engine R179). -/
abbrev SameInFlight (s t : State) : Prop :=
  s.owner = t.owner ∧ s.txBuf = t.txBuf ∧ s.txCnt = t.txCnt ∧ s.rxCnt = t.rxCnt ∧ s.deadline = t.deadline ∧
  ∀ j, j < s.rxCnt → s.rxBuf.get j = t.rxBuf.get j

/-- Two states that differ at most in data no rule reads (10_state R22 (a), R23). -/
abbrev Agree (s t : State) : Prop := SameVisible s t ∧ (s.phase ≠ .idle → SameInFlight s t)

/-! ### The transmit stream -/

/-- The request the next step grants, if it makes a grant (42_transaction_engine R168). -/
def grantedNext (s : State) : Option (Byte × Word) :=
  match nextEvent s with
  | .move (.grant i) => if mayGrant i s then (pendOf i s).map (fun p => (p.op, p.val)) else none
  | .edge p =>
    if !p.rst && s.isOpen && s.phase == .idle then
      match arbiter p.arb s with
      | some i => (pendOf i s).map (fun q => (q.op, q.val))
      | none => none
    else none
  | _ => none

/-- `k` steps, stopping at the first that stops. -/
def runSteps : Nat → State → Out
  | 0, s => .next s
  | k + 1, s => andThen (step s) (runSteps k)

/-- None of the next `k` steps is a reset. -/
def noResetIn : Nat → State → Bool
  | 0, _ => true
  | k + 1, s =>
    !resetEvent s &&
      match step s with
      | .next t => noResetIn k t
      | _ => true

/-- The requests granted in the next `k` steps, in the order of their grants. -/
def grants : Nat → State → List (Byte × Word)
  | 0, _ => []
  | k + 1, s =>
    (grantedNext s).toList ++
      match step s with
      | .next t => grants k t
      | _ => []

/-- One piece of the transmit stream: the first `k` bytes of a transaction's frame, nothing for an opcode that is
refused (20_memory R70). -/
def piece (r : Byte × Word) (k : Nat) : List Byte :=
  if legalOpcode r.1 then (buildFrame r.1 r.2).toList.take k else []

/-- The concatenation of one piece per request (20_memory R70). -/
def pieces (log : List (Byte × Word)) (ks : List Nat) : List Byte := (List.zipWith piece log ks).flatten

/-- How far a transaction has come in transfer steps: six writes, then six reads (42_transaction_engine R187). -/
def progress (s : State) : Nat :=
  match s.phase with
  | .idle => 0
  | .write => s.txCnt
  | .read => 6 + s.rxCnt
  | .decode => 12

/-! ### Runs and named premises (42_transaction_engine R193) -/

/-- An infinite run of the machine. -/
def IsRun (run : Nat → State) : Prop := ∀ k, step (run k) = .next (run (k + 1))

/-- `NO_RESET`: `rst` is not asserted after `open`. -/
def NoReset (run : Nat → State) : Prop := ∀ k, (run k).isOpen = true → resetEvent (run k) = false

/-- `OPENED`. -/
def Opened (run : Nat → State) : Prop := ∃ k, (run k).isOpen = true

/-- `CONFIG_OK`: the constraints hold, there is a caller, and the constants do not change while `OPEN = 1`. -/
def ConfigOk (run : Nat → State) : Prop :=
  ∀ k, (run k).cfg.ok ∧ CallersOk (run k) ∧ ((run k).isOpen = true → (run (k + 1)).isOpen = true → (run (k + 1)).cfg = (run k).cfg)

/-- `OPCODE_LEGAL`. -/
def OpcodeLegal (run : Nat → State) : Prop :=
  ∀ k, ∀ c ∈ (run k).callers, c.pend.valid = true → legalOpcode c.pend.op = true

/-- `TIME_DIVERGES` (20_memory R76). -/
def TimeDiverges (run : Nat → State) : Prop := ∀ t, ∃ k, t ≤ (run k).now

/-- The attempt a phase is in returns: at some point the phase is over or a step of the sequencer comes. A run in which
none comes is one whose attempt never returns (42_transaction_engine R187; log entry 9). -/
def AttemptsReturn (ph : Phase) (run : Nat → State) : Prop :=
  ∀ k, (run k).phase = ph → ∃ j, k ≤ j ∧ ((run j).phase ≠ ph ∨ sequencerEvent (run j) = true)

/-- `CHWRITE_BOUNDED`: `T_CHWRITE` is finite and every write attempt returns; that it does so within `T_CHWRITE` holds of
every move (`writeDuration`, `admittedTime`). -/
def ChWriteBounded (run : Nat → State) : Prop :=
  (∀ k, ((run k).cfg.tChWrite).isSome = true) ∧ AttemptsReturn .write run

/-- Every attempt of either phase returns and the decode step is made (42_transaction_engine R187). -/
def SequencerRuns (run : Nat → State) : Prop :=
  AttemptsReturn .write run ∧ AttemptsReturn .read run ∧ AttemptsReturn .decode run

/-- `ARB_FAIR` (20_memory R80): a caller that waits is granted at some point. -/
def ArbFair (run : Nat → State) : Prop :=
  ∀ k i, waits i (run k) = true → ∃ j, k ≤ j ∧ waits i (run j) = false

/-- `RXQ_CLEAN_AT_GRANT` (20_memory R75): no stale byte waits where a grant is made. -/
def RxqCleanAtGrant (run : Nat → State) : Prop := ∀ k, (grantedNext (run k)).isSome = true → (run k).rxq = []

/-- A reply frame as `DEVICE_WELL_BEHAVED` asks for it (20_memory R75): ACK or NAK type, right framing and checksum. -/
def wellFormedReply (bs : List Byte) : Bool :=
  match decodeResponse bs with
  | .ok _ => true
  | .error _ => false

/-- What the device appends to `RXQ` in the next step (20_memory R75). -/
def deviceBytesNext (s : State) : List Byte :=
  match nextEvent s with
  | .move (.device bs) => bs
  | .edge p => p.device
  | _ => []

/-- The step from `s` to `t` put the last byte of a request frame on the wire, whether the attempt that moved it was
answered `ok` or `fail` (42_transaction_engine R178). -/
def frameCompleted (s t : State) : Bool :=
  s.phase == .write && t.wireTx.length == s.wireTx.length + (frameLen - s.txCnt)

/-- How many request frames became complete in `WIRE_TX` in the first `k` steps of a run. -/
def framesSent (run : Nat → State) (k : Nat) : Nat :=
  ((List.range k).filter (fun j => frameCompleted (run j) (run (j + 1)))).length

/-- Every byte the device appended in the first `k` steps of a run, in order. -/
def deviceStream (run : Nat → State) (k : Nat) : List Byte :=
  (List.range k).flatMap (fun j => deviceBytesNext (run j))

/-- `DEVICE_WELL_BEHAVED` (20_memory R75): the device's bytes are one well-formed reply for every complete request frame
and nothing else; a byte of a reply comes in a later step than the sixth byte of its request, and every reply comes whole
at some point. That the six bytes of a reply may come in several appends is the model's choice (log entry 25). -/
def DeviceWellBehaved (run : Nat → State) : Prop :=
  ∀ k, ∃ replies : List (List Byte),
    replies.length = framesSent run k ∧ (∀ reply ∈ replies, wellFormedReply reply = true) ∧
    deviceStream run (k + 1) <+: replies.flatten ∧ ∃ m, replies.flatten <+: deviceStream run m

end Sys2Proof.Machine
end

