-- ==== Sys2Proof/Certificates/Slice0/Obligations.lean ====
section
/-!
DEFINITION. The statements of this row, from the numbered rules of spec/. OBLIGATIONS.json lists them.
-/

open Sys2Proof Sys2Proof.Machine

/-! ### Frame Codec and Device Error Mapper -/

/-- 40_frame_codec R123: `^` is bitwise, commutative and associative with identity 0x00 and every byte its own inverse;
the fold does not depend on the order of the bytes, and a sequence followed by its own BCC folds to zero. -/
def Obligations.XorFoldLaws : Prop :=
  (∀ (a b : Byte) (i : Nat), (a ^^^ b).getLsbD i = (a.getLsbD i != b.getLsbD i)) ∧
  (∀ a b c : Byte, a ^^^ b = b ^^^ a ∧ a ^^^ b ^^^ c = a ^^^ (b ^^^ c) ∧ a ^^^ 0x00#8 = a ∧ a ^^^ a = 0x00#8) ∧
  (∀ s t : List Byte, s.Perm t → calculateBCC s = calculateBCC t) ∧
  (∀ s : List Byte, calculateBCC (s ++ [calculateBCC s]) = 0x00#8)

/-- 40_frame_codec R124 (with R97 of 30_encoding and R64 of 20_memory): the six bytes of a request frame in the order they
travel, for every opcode byte and value, and the BCC of its corner cases. -/
def Obligations.BuildFrameBytes : Prop :=
  ∀ (op : Byte) (v : Word),
    (buildFrame op v).toList = [0x02#8, op, hi8 v, lo8 v, 0x03#8, op ^^^ hi8 v ^^^ lo8 v] ∧
    (hi8 v = lo8 v → (buildFrame op v).b5 = op) ∧
    (hi8 v ^^^ lo8 v = op → (buildFrame op v).b5 = 0x00#8)

/-- 30_encoding R91, R92, R100, R104: the decoder of its direction reads back every well-formed instruction from its
encoding, with every operand at every value. -/
def Obligations.DecodeOfEncode : Prop :=
  ∀ i : Instr, i.wellFormed = true → decode i.kind (encode i) = .ok i

/-- 30_encoding R93, R104: whatever bytes a decoder accepts are the encoding of the instruction it reads from them, and that
instruction is well formed and of the format of its direction. -/
def Obligations.EncodeOfDecode : Prop :=
  ∀ (k : Kind) (bs : List Byte) (i : Instr), decode k bs = .ok i → encode i = bs ∧ i.wellFormed = true ∧ i.kind = k

/-- Words of the opcode table, written out from 95_test_vectors V6 to V8, V16, V20 and 30_encoding R100, decode to the rows
they stand for. -/
def Obligations.TableWordsDecode : Prop :=
  decodeTableWord 48 0x025200100342 = some (.read 0x0010#16) ∧
  decodeTableWord 48 0x024300000343 = some (.command 0x0000#16) ∧
  decodeTableWord 48 0x025712340371 = some (.write 0x1234#16) ∧
  decodeTableWord 48 0x020612340320 = some (.ack 0x1234#16) ∧
  decodeTableWord 48 0x021507000312 = some (.nak 0x07#8 0x00#8) ∧
  decodeTableWord 48 0x020612340326 = none ∧
  decodeTableWord 8 0x02 = some .errInvalidAddress ∧ decodeTableWord 8 0x04 = some .errInvalidBcc ∧
  decodeTableWord 8 0x05 = some .errInvalidCommand ∧ decodeTableWord 8 0x06 = some .errInvalidParameter ∧
  decodeTableWord 8 0x07 = some .errOutOfRange ∧ decodeTableWord 8 0x09 = some (.errUnknown 0x09#8)

/-- 30_encoding R93: no bytes are both a request and a response; a request frame read as a reply passes framing and checksum
and fails the type check. -/
def Obligations.RequestReadAsReplyFails : Prop :=
  (∀ (bs : List Byte) (i : Instr), decodeRequestFrame bs = .ok i →
    ∃ op : Byte, legalOpcode op = true ∧ decodeResponse bs = .error (.respType op)) ∧
  (∀ (op : Byte) (v : Word), legalOpcode op = true →
    parseResponse (buildFrame op v).toList = errResult .respType (infoRespType op))

/-- 40_frame_codec R130, R132, and the checks of R129 and R131 beside them: the checks of `parseResponse` in their order, each
with what it reports; six bytes never fail the length check. -/
def Obligations.ParseResponseChecks : Prop :=
  (∀ s : List Byte, s.length ≠ 6 →
    parseResponse s = { status := .length, value := 0#16, info := BitVec.ofNat 16 (min s.length 255) }) ∧
  (∀ f : Frame, (parseResponse f.toList).status ≠ .length) ∧
  (∀ f : Frame, f.b0 ≠ 0x02#8 ∨ f.b4 ≠ 0x03#8 →
    parseResponse f.toList = { status := .framing, value := 0#16, info := 0#16 }) ∧
  (∀ f : Frame, f.b0 = 0x02#8 → f.b4 = 0x03#8 → f.b1 ^^^ f.b2 ^^^ f.b3 ≠ f.b5 →
    parseResponse f.toList =
      { status := .checksum, value := 0#16, info := join16 (f.b1 ^^^ f.b2 ^^^ f.b3) f.b5 }) ∧
  (∀ f : Frame, f.b0 = 0x02#8 → f.b4 = 0x03#8 → f.b1 ^^^ f.b2 ^^^ f.b3 = f.b5 → f.b1 ≠ 0x06#8 → f.b1 ≠ 0x15#8 →
    parseResponse f.toList = { status := .respType, value := 0#16, info := zext16 f.b1 })

/-- 40_frame_codec R133, and the NAK of R134 beside it: a reply that passes every check, by its type; every 16-bit value can be
returned. -/
def Obligations.ParseResponseDecodes : Prop :=
  (∀ b2 b3 : Byte,
    parseResponse [0x02#8, 0x06#8, b2, b3, 0x03#8, 0x06#8 ^^^ b2 ^^^ b3] =
      { status := .ok, value := zext16 b2 <<< 8 ||| zext16 b3, info := 0#16 }) ∧
  (∀ code reserved : Byte,
    parseResponse [0x02#8, 0x15#8, code, reserved, 0x03#8, 0x15#8 ^^^ code ^^^ reserved] =
      { status := .device, value := 0#16, info := join16 (categoryCode (category code)) code }) ∧
  (∀ v : Word, ∃ b2 b3 : Byte, parseResponse [0x02#8, 0x06#8, b2, b3, 0x03#8, 0x06#8 ^^^ b2 ^^^ b3] = okResult v)

/-- 40_frame_codec R135 (derived there from R124 and R133): encode a value, build the ACK that carries it, decode: the value comes back. -/
def Obligations.AckRoundTrip : Prop :=
  ∀ (op : Byte) (v : Word), legalOpcode op = true →
    parseResponse [0x02#8, 0x06#8, (buildFrame op v).b2, (buildFrame op v).b3, 0x03#8,
      0x06#8 ^^^ (buildFrame op v).b2 ^^^ (buildFrame op v).b3] = okResult v

/-- 40_frame_codec R136 (derived there from R123 and R131): from an accepted frame, (a) changing one of the bytes at offsets 1, 2, 3, 5 gives E_CHECKSUM, and the
two checksums reported differ by that byte's own difference, (b) changing offset 0 or 4 gives E_FRAMING, (c) changes of
offsets 1, 2, 3, 5 whose differences XOR to zero pass the checksum, so an ACK with the same bits of both data bytes
flipped is an ACK of another value. -/
def Obligations.SingleByteErrorsDetected : Prop :=
  (∀ f : Frame, (parseResponse f.toList).status = .ok ∨ (parseResponse f.toList).status = .device →
    (∀ (j : Nat) (b : Byte), j = 1 ∨ j = 2 ∨ j = 3 ∨ j = 5 → b ≠ f.get j →
      (parseResponse (f.set j b).toList).status = .checksum ∧
      hi8 (parseResponse (f.set j b).toList).info ^^^ lo8 (parseResponse (f.set j b).toList).info = b ^^^ f.get j) ∧
    (∀ (j : Nat) (b : Byte), j = 0 ∨ j = 4 → b ≠ f.get j → (parseResponse (f.set j b).toList).status = .framing) ∧
    (∀ d1 d2 d3 d5 : Byte, d1 ^^^ d2 ^^^ d3 ^^^ d5 = 0x00#8 →
      (parseResponse [f.b0, f.b1 ^^^ d1, f.b2 ^^^ d2, f.b3 ^^^ d3, f.b4, f.b5 ^^^ d5]).status ≠ .checksum)) ∧
  (∀ b2 b3 d : Byte, d ≠ 0x00#8 →
    parseResponse [0x02#8, 0x06#8, b2 ^^^ d, b3 ^^^ d, 0x03#8, 0x06#8 ^^^ b2 ^^^ b3] =
      okResult (join16 (b2 ^^^ d) (b3 ^^^ d)) ∧ join16 (b2 ^^^ d) (b3 ^^^ d) ≠ join16 b2 b3)

/-- 40_frame_codec R121: the ports of a codec on its own carry offset 0 in bits 47:40; with a length other than 6 no bit of
the buffer matters. -/
def Obligations.CodecPorts : Prop :=
  (∀ (op : Byte) (v : Word), Frame.ofNat (bfFrame op v).toNat = buildFrame op v) ∧
  (∀ f : Frame, prResult 6 f.toBits = parseResponse f.toList) ∧
  (∀ (n : Nat) (x y : BitVec 48), n ≠ 6 → prResult n x = prResult n y ∧ prStatus n x = 4#4) ∧
  (∀ (op : Byte) (v : Word), (bfFrame op v).extractLsb' 40 8 = 0x02#8 ∧ (bfFrame op v).extractLsb' 32 8 = op ∧
    (bfFrame op v).extractLsb' 16 16 = v ∧ (bfFrame op v).extractLsb' 8 8 = 0x03#8)

/-- 41_error_mapper R155, R156, with R151 to R154 beside them: the category and the text of every device error code, and that
every code in a well-formed NAK, whatever its reserved byte, is a device error with that category. The texts of 0x02, 0x04,
0x05 and 0x06 are open (00_scope R7, log entry 15). -/
def Obligations.DeviceCategories : Prop :=
  (category 0x02#8 = .invalidAddress ∧ describe 0x02#8 = Config.txt02) ∧
  (category 0x04#8 = .invalidBcc ∧ describe 0x04#8 = Config.txt04) ∧
  (category 0x05#8 = .invalidCommand ∧ describe 0x05#8 = Config.txt05) ∧
  (category 0x06#8 = .invalidParameter ∧ describe 0x06#8 = Config.txt06) ∧
  (category 0x07#8 = .outOfRange ∧ describe 0x07#8 = "invalid setting value (out-of-range specified)") ∧
  (∀ c : Byte, c ≠ 0x02#8 → c ≠ 0x04#8 → c ≠ 0x05#8 → c ≠ 0x06#8 → c ≠ 0x07#8 →
    category c = .unknown ∧ describe c = "unknown error code " ++ hex2 c) ∧
  describe 0x09#8 = "unknown error code 09" ∧
  (∀ c reserved : Byte,
    parseResponse [0x02#8, 0x15#8, c, reserved, 0x03#8, 0x15#8 ^^^ c ^^^ reserved] =
      errResult .device (infoDevice (category c) c)) ∧
  (∀ c : Byte, categoryCode (category c) = 0x00#8 ↔ c ≠ 0x02#8 ∧ c ≠ 0x04#8 ∧ c ≠ 0x05#8 ∧ c ≠ 0x06#8 ∧ c ≠ 0x07#8)

/-- 30_encoding R107: the text of a delivered result holds the fragment the source gives of it, with its variable part: K of
a timeout, both checksums, the device error's own text. The words around them are open and may depend on the info
word, and that both checksums follow the fragment, the expected one first, is the model's choice (log entry 15). -/
def Obligations.ResultTexts : Prop :=
  ∀ r : Result,
    (r.status = .ok → resultText r = none) ∧
    (r.status = .device → resultText r = some (describe (lo8 r.info))) ∧
    (r.status = .writeFailed → ∃ a b, resultText r = some (a ++ "write failed" ++ b)) ∧
    (r.status = .readFailed → ∃ a b, resultText r = some (a ++ "read failed" ++ b)) ∧
    (r.status = .timeout → ∃ a b,
      resultText r = some (a ++ ("timeout after " ++ Nat.repr (lo8 r.info).toNat ++ "/6 bytes") ++ b)) ∧
    (r.status = .length → ∃ a b, resultText r = some (a ++ "a length error" ++ b)) ∧
    (r.status = .framing → ∃ a b, resultText r = some (a ++ "framing error" ++ b)) ∧
    (r.status = .checksum → ∃ a b c d,
      resultText r = some (a ++ "checksum mismatch" ++ b ++ Config.byteText (hi8 r.info) ++ c
        ++ Config.byteText (lo8 r.info) ++ d)) ∧
    (r.status = .respType → ∃ a b, resultText r = some (a ++ "invalid response type" ++ b)) ∧
    (r.status = .illegalOpcode → ∃ a b, resultText r = some (a ++ Config.byteText (lo8 r.info) ++ b))

/-- 60_exceptions R210 (the spec's own numbering, D15): the ten status codes; and 42_transaction_engine R189: the ports
`rsp_status`, `rsp_value`, `rsp_info` and `rsp_valid` of a caller show `RSP[i]`. That `rsp_valid` is 0 while `rst = 1` is
70_reset_and_hazards R250. -/
def Obligations.StatusCodesAndResponsePorts : Prop :=
  (statusCode .ok = 0#4 ∧ statusCode .writeFailed = 1#4 ∧ statusCode .readFailed = 2#4 ∧ statusCode .timeout = 3#4 ∧
    statusCode .length = 4#4 ∧ statusCode .framing = 5#4 ∧ statusCode .checksum = 6#4 ∧ statusCode .respType = 7#4 ∧
    statusCode .device = 8#4 ∧ statusCode .illegalOpcode = 9#4) ∧
  (∀ (s : State) (i : Nat) (r : Rsp), rspOf i s = some r →
    rspStatus i s = some (statusCode r.status) ∧ rspValue i s = some r.value ∧ rspInfo i s = some r.info ∧
    rspValid false i s = r.valid ∧ rspValid true i s = false) ∧
  (∀ (s : State) (i : Nat), s.callers.length ≤ i →
    rspStatus i s = none ∧ rspValue i s = none ∧ rspInfo i s = none ∧ rspValid false i s = false)

/-! ### The rows of the opcode table -/

/-- 42_transaction_engine R168, R170, R179: with the channel open and the lock free, COMMAND, WRITE and READ each build their
own frame, clear the counts, set the deadline and begin the write phase; nothing else changes. -/
def Obligations.RequestRowsStart : Prop :=
  ∀ (s : State) (v : Word), s.isOpen = true → s.phase = .idle →
    exec (.command v) s = .next { s with
      reqOp := 0x43#8, reqVal := v, txBuf := buildFrame 0x43#8 v, txCnt := 0, rxCnt := 0,
      deadline := s.now + s.cfg.tDeadline, phase := .write } ∧
    exec (.write v) s = .next { s with
      reqOp := 0x57#8, reqVal := v, txBuf := buildFrame 0x57#8 v, txCnt := 0, rxCnt := 0,
      deadline := s.now + s.cfg.tDeadline, phase := .write } ∧
    exec (.read v) s = .next { s with
      reqOp := 0x52#8, reqVal := v, txBuf := buildFrame 0x52#8 v, txCnt := 0, rxCnt := 0,
      deadline := s.now + s.cfg.tDeadline, phase := .write }

/-- 42_transaction_engine R168, R183 and 20_memory R80: while the channel is closed or the lock is held, a request row waits and
nothing changes; that `exec` answers the same state there is the model's form of waiting (log entry 12). And what COMMAND,
WRITE and READ leave unchanged wherever they answer a next state. -/
def Obligations.RequestRowsWaitAndFrame : Prop :=
  (∀ (s : State) (i : Instr), i.kind = .request → s.isOpen = false ∨ s.phase ≠ .idle → exec i s = .next s) ∧
  (∀ (s t : State) (i : Instr), i.kind = .request → exec i s = .next t →
    t.isOpen = s.isOpen ∧ t.owner = s.owner ∧ t.rxBuf = s.rxBuf ∧ t.callers = s.callers ∧ t.now = s.now ∧
    t.wireTx = s.wireTx ∧ t.rxq = s.rxq ∧ t.cfg = s.cfg ∧ t.script = s.script ∧ t.draws = s.draws)

/-- 40_frame_codec R133, 42_transaction_engine R180, R181: in the decode phase ACK delivers OK with its 16 bits to the owner and
releases the lock. -/
def Obligations.AckRowSucceeds : Prop :=
  ∀ (s : State) (v : Word), s.phase = .decode → s.owner < s.callers.length →
    ∃ t, exec (.ack v) s = .next t ∧ t.phase = .idle ∧
      rspOf s.owner t = some { valid := true, status := .ok, value := v, info := 0x0000#16 }

/-- 40_frame_codec R134, 60_exceptions R212: in the decode phase NAK delivers E_DEVICE with the category and the raw code,
whatever its reserved byte. That in every state it is `exec` of the row of its error code, which waits outside the decode
phase as NAK does, is the model's form of that row (log entry 12) on 41_error_mapper R150. -/
def Obligations.NakRowReportsDeviceError : Prop :=
  (∀ (s : State) (code reserved : Byte), s.phase = .decode → s.owner < s.callers.length →
    ∃ t, exec (.nak code reserved) s = .next t ∧ t.phase = .idle ∧
      rspOf s.owner t = some { valid := true, status := .device, value := 0x0000#16,
                               info := join16 (categoryCode (category code)) code }) ∧
  (∀ (s : State) (code reserved : Byte), exec (.nak code reserved) s = exec (decodeErrCode code) s)

/-- 41_error_mapper R151 to R156, 60_exceptions R212: in the decode phase each error code row delivers E_DEVICE with its own
category number and its code. That a code row runs on its own is the model's form (log entry 12). -/
def Obligations.ErrorCodeRowsReport : Prop :=
  ∀ s : State, s.phase = .decode → s.owner < s.callers.length →
    (∃ t, exec .errInvalidAddress s = .next t ∧ t.phase = .idle ∧
      rspOf s.owner t = some { valid := true, status := .device, value := 0x0000#16, info := 0x0102#16 }) ∧
    (∃ t, exec .errInvalidBcc s = .next t ∧ t.phase = .idle ∧
      rspOf s.owner t = some { valid := true, status := .device, value := 0x0000#16, info := 0x0204#16 }) ∧
    (∃ t, exec .errInvalidCommand s = .next t ∧ t.phase = .idle ∧
      rspOf s.owner t = some { valid := true, status := .device, value := 0x0000#16, info := 0x0305#16 }) ∧
    (∃ t, exec .errInvalidParameter s = .next t ∧ t.phase = .idle ∧
      rspOf s.owner t = some { valid := true, status := .device, value := 0x0000#16, info := 0x0406#16 }) ∧
    (∃ t, exec .errOutOfRange s = .next t ∧ t.phase = .idle ∧
      rspOf s.owner t = some { valid := true, status := .device, value := 0x0000#16, info := 0x0507#16 }) ∧
    (∀ c : Byte, ∃ t, exec (.errUnknown c) s = .next t ∧ t.phase = .idle ∧
      rspOf s.owner t = some { valid := true, status := .device, value := 0x0000#16, info := zext16 c })

/-- 42_transaction_engine R172, R180, R181, R182: outside the decode phase no reply is decoded, and a response row or an error
code row changes nothing; that `exec` answers the same state there is the model's form of waiting (log entry 12). And what
these rows leave unchanged wherever they answer a next state: everything but `PHASE` and `RSP[OWNER]`. -/
def Obligations.ReplyRowsWaitAndFrame : Prop :=
  (∀ (s : State) (i : Instr), i.kind ≠ .request → s.phase ≠ .decode → exec i s = .next s) ∧
  (∀ (s t : State) (i : Instr), i.kind ≠ .request → exec i s = .next t →
    t = { s with phase := t.phase, callers := t.callers } ∧ t.callers.length = s.callers.length ∧
    (∀ j, pendOf j t = pendOf j s) ∧ (∀ j, j ≠ s.owner → rspOf j t = rspOf j s) ∧
    (s.phase ≠ .decode → t = s) ∧ (s.phase = .decode → t.phase = .idle))

/-- The model's choice (log entry 14), on 10_state R20 (`OWNER` is `0..N_CALLERS-1`): in the decode phase a response or error
code row stops with `noSuchCaller` exactly if `OWNER` names no caller port. -/
def Obligations.ReplyRowsStopWithoutOwner : Prop :=
  ∀ (s : State) (i : Instr), i.kind ≠ .request → s.phase = .decode →
    (exec i s = .fault .noSuchCaller ↔ s.callers.length ≤ s.owner)

/-! ### Steps -/

/-- The model's form of a run (log entries 4, 5) on 42_transaction_engine R168, R180, R191: a step takes the first event listed,
or a free one; where it is a grant, the request that waits is decoded and its row runs once it is latched; where it is a
decode step, the reply buffer is decoded and its row runs. -/
def Obligations.StepRunsDecodedInstruction : Prop :=
  (∀ (s : State) (m : Move) (rest : List Event), s.script = .move m :: rest →
    step s = runMove m { s with script := rest }) ∧
  (∀ s : State, s.script = [] → step s = runEvent (Config.freeEvent s.draws) { s with draws := s.draws + 1 }) ∧
  (∀ (s : State) (i : Nat) (p : Pend) (instr : Instr) (rest : List Event), s.script = .move (.grant i) :: rest →
    s.isOpen = true → s.phase = .idle → pendOf i s = some p → p.valid = true →
    decodeRequest p.op p.val = some instr → step s = exec instr (latchRequest i p { s with script := rest })) ∧
  (∀ (s : State) (instr : Instr) (rest : List Event), s.script = .move .decode :: rest → s.phase = .decode →
    decodeResponse s.rxBuf.toList = .ok instr → step s = exec instr { s with script := rest })

/-- The same for an edge of the clock with `rst = 0` (42_transaction_engine R186): the decoded row runs, then what the ports ask
for, then the device's bytes and one tick. The order within an edge is the model's (log entry 10). -/
def Obligations.EdgeRunsDecodedInstruction : Prop :=
  (∀ (s : State) (p : PortsIn) (instr : Instr) (rest : List Event), s.script = .edge p :: rest → p.rst = false →
    s.phase = .decode → decodeResponse s.rxBuf.toList = .ok instr →
    step s = andThen (exec instr { s with script := rest }) (fun u =>
      andThen (runMoves (portMoves p { s with script := rest }) u) (fun v =>
        .next { v with rxq := v.rxq ++ p.device, now := v.now + 1 }))) ∧
  (∀ (s : State) (p : PortsIn) (i : Nat) (q : Pend) (instr : Instr) (rest : List Event), s.script = .edge p :: rest →
    p.rst = false → s.isOpen = true → s.phase = .idle → arbiter p.arb s = some i → pendOf i s = some q →
    decodeRequest q.op q.val = some instr →
    step s = andThen (exec instr (latchRequest i q { s with script := rest })) (fun u =>
      andThen (runMoves (portMoves p { s with script := rest }) u) (fun v =>
        .next { v with rxq := v.rxq ++ p.device, now := v.now + 1 })))

/-- 42_transaction_engine R168, R170: a grant to any caller that waits, with a legal opcode, and everything it leaves alone. -/
def Obligations.GrantStartsTransaction : Prop :=
  ∀ (s : State) (i : Nat) (p : Pend), s.isOpen = true → s.phase = .idle → pendOf i s = some p → p.valid = true →
    p.op = 0x43#8 ∨ p.op = 0x57#8 ∨ p.op = 0x52#8 →
    ∃ t, runMove (.grant i) s = .next t ∧ t.owner = i ∧ t.reqOp = p.op ∧ t.reqVal = p.val ∧
      pendOf i t = some { p with valid := false } ∧ t.txBuf = buildFrame p.op p.val ∧ t.txCnt = 0 ∧ t.rxCnt = 0 ∧
      t.deadline = s.now + s.cfg.tDeadline ∧ t.phase = .write ∧
      (∀ j, j ≠ i → pendOf j t = pendOf j s) ∧ (∀ j, rspOf j t = rspOf j s) ∧
      t.isOpen = s.isOpen ∧ t.rxBuf = s.rxBuf ∧ t.now = s.now ∧ t.wireTx = s.wireTx ∧ t.rxq = s.rxq ∧ t.cfg = s.cfg ∧
      t.script = s.script ∧ t.draws = s.draws

/-- 42_transaction_engine R169 ("This class and this behaviour are this spec's own choice"): a grant with any other opcode
completes at once with E_ILLEGAL_OPCODE; no frame is built, no byte moves, the deadline is not set, the lock stays free. -/
def Obligations.GrantRefusesIllegalOpcode : Prop :=
  ∀ (s : State) (i : Nat) (p : Pend), s.isOpen = true → s.phase = .idle → pendOf i s = some p → p.valid = true →
    p.op ≠ 0x43#8 → p.op ≠ 0x57#8 → p.op ≠ 0x52#8 →
    ∃ t, runMove (.grant i) s = .next t ∧ t.owner = i ∧ t.reqOp = p.op ∧ t.reqVal = p.val ∧
      pendOf i t = some { p with valid := false } ∧
      rspOf i t = some { valid := true, status := .illegalOpcode, value := 0x0000#16, info := zext16 p.op } ∧
      t.phase = .idle ∧ t.txBuf = s.txBuf ∧ t.txCnt = s.txCnt ∧ t.rxBuf = s.rxBuf ∧ t.rxCnt = s.rxCnt ∧
      t.deadline = s.deadline ∧ t.wireTx = s.wireTx ∧ t.rxq = s.rxq ∧ t.now = s.now ∧ t.isOpen = s.isOpen ∧
      (∀ j, j ≠ i → pendOf j t = pendOf j s ∧ rspOf j t = rspOf j s)

/-- 42_transaction_engine R171, R173, R175, R178 and 60_exceptions R212, R217: a write step, by deadline, then failure, then
count. That a draw outside the range of its rule is cut to it, and does not shut the step out, is the model's choice (log
entry 8). -/
def Obligations.WriteStepEffect : Prop :=
  ∀ (s : State) (n : Nat) (err : Xfer) (dur : Nat), s.phase = .write →
    (s.deadline ≤ s.now →
      runMove (.write n err dur) s =
        complete { status := .timeout, value := 0x0000#16, info := join16 0x00#8 (BitVec.ofNat 8 s.txCnt) } s) ∧
    (s.now < s.deadline → err = .fail →
      runMove (.write n err dur) s =
        complete { status := .writeFailed, value := 0x0000#16, info := 0x0000#16 }
          { s with
            wireTx := s.wireTx ++ (s.txBuf.toList.drop s.txCnt).take (min n (min (6 - s.txCnt) s.cfg.maxXfer))
            now := s.now + writeDuration dur s }) ∧
    (s.now < s.deadline → err = .ok →
      runMove (.write n err dur) s = .next
        { s with
          wireTx := s.wireTx ++ (s.txBuf.toList.drop s.txCnt).take (min n (min (6 - s.txCnt) s.cfg.maxXfer))
          now := s.now + writeDuration dur s
          txCnt := s.txCnt + min n (min (6 - s.txCnt) s.cfg.maxXfer)
          phase := if s.txCnt + min n (min (6 - s.txCnt) s.cfg.maxXfer) = 6 then .read else .write })

/-- 42_transaction_engine R171, R174, R176, R178 and 60_exceptions R212, R217: a read step, by deadline, then failure, then
bytes. That a draw outside the range of its rule is cut to it is the model's choice (log entry 8). -/
def Obligations.ReadStepEffect : Prop :=
  ∀ (s : State) (n : Nat) (err : Xfer) (dur : Nat), s.phase = .read →
    (s.deadline ≤ s.now →
      runMove (.read n err dur) s =
        complete { status := .timeout, value := 0x0000#16, info := join16 0x01#8 (BitVec.ofNat 8 s.rxCnt) } s) ∧
    (s.now < s.deadline → err = .fail →
      runMove (.read n err dur) s =
        complete { status := .readFailed, value := 0x0000#16, info := 0x0000#16 }
          { s with
            rxq := s.rxq.drop (min n (min (6 - s.rxCnt) (min s.cfg.maxXfer s.rxq.length)))
            now := s.now + readDuration dur s }) ∧
    (s.now < s.deadline → err = .ok → s.rxCnt ≤ 6 →
      ∃ t, runMove (.read n err dur) s = .next t ∧
        t.rxCnt = s.rxCnt + min n (min (6 - s.rxCnt) (min s.cfg.maxXfer s.rxq.length)) ∧
        t.rxq = s.rxq.drop (min n (min (6 - s.rxCnt) (min s.cfg.maxXfer s.rxq.length))) ∧
        t.now = s.now + readDuration dur s ∧
        t.phase = (if t.rxCnt = 6 then .decode else .read) ∧
        (∀ j, s.rxCnt ≤ j → j < t.rxCnt → some (t.rxBuf.get j) = s.rxq[j - s.rxCnt]?) ∧
        (∀ j, j < s.rxCnt ∨ t.rxCnt ≤ j → t.rxBuf.get j = s.rxBuf.get j) ∧
        t = { s with rxBuf := t.rxBuf, rxCnt := t.rxCnt, rxq := t.rxq, now := t.now, phase := t.phase })

/-- 42_transaction_engine R180: in the decode phase the step completes with what `parseResponse` gives on the reply buffer,
whatever the deadline and whatever the opcode (R179). That the step, which is not enabled in any other phase, is passed
over there is the model's choice (log entry 7). -/
def Obligations.DecodeStepIsParseResponse : Prop :=
  ∀ s : State,
    (s.phase = .decode → runMove .decode s = complete (parseResponse s.rxBuf.toList) s) ∧
    (s.phase ≠ .decode → runMove .decode s = .next s)

/-- 60_exceptions R220 (42_transaction_engine R181): completion delivers to the owner's latch and frees the lock, and does
nothing else; with an error class the value delivered is 0x0000. -/
def Obligations.CompleteDelivers : Prop :=
  (∀ (st : Status) (info : Word) (s : State),
    fail st info s = complete { status := st, value := 0x0000#16, info := info } s) ∧
  ∀ (r : Result) (s : State), s.owner < s.callers.length →
    ∃ t, complete r s = .next t ∧
      rspOf s.owner t = some { valid := true, status := r.status, value := r.value, info := r.info } ∧
      t.phase = .idle ∧ (∀ j, j ≠ s.owner → rspOf j t = rspOf j s) ∧ (∀ j, pendOf j t = pendOf j s) ∧
      t = { s with phase := .idle, callers := t.callers }

/-- 42_transaction_engine R167, R192: a request step is latched for a caller with no call outstanding, open or not; an offer
of a caller with a call outstanding is ignored. That an offer of a caller without a port is ignored too is the model's
choice (log entry 7). -/
def Obligations.RequestStepLatches : Prop :=
  ∀ (s : State) (i : Nat) (op : Byte) (val : Word),
    (i < s.callers.length → waits i s = false → (s.phase = .idle ∨ s.owner ≠ i) → rspWaits i s = false →
      ∃ t, runMove (.request i op val) s = .next t ∧ pendOf i t = some { valid := true, op := op, val := val } ∧
        (∀ j, j ≠ i → pendOf j t = pendOf j s) ∧ (∀ j, rspOf j t = rspOf j s) ∧ t = { s with callers := t.callers }) ∧
    (s.callers.length ≤ i ∨ waits i s = true ∨ (s.phase ≠ .idle ∧ s.owner = i) ∨ rspWaits i s = true →
      runMove (.request i op val) s = .next s)

/-- 42_transaction_engine R182: taking a response clears its valid bit and nothing else. That a response step with nothing to
take, which is not enabled, is passed over is the model's choice (log entry 7). -/
def Obligations.ResponseStepTakes : Prop :=
  ∀ (s : State) (i : Nat),
    (∀ r, rspOf i s = some r → r.valid = true →
      ∃ t, runMove (.response i) s = .next t ∧ rspOf i t = some { r with valid := false } ∧
        (∀ j, j ≠ i → rspOf j t = rspOf j s) ∧ (∀ j, pendOf j t = pendOf j s) ∧ t = { s with callers := t.callers }) ∧
    (rspWaits i s = false → runMove (.response i) s = .next s)

/-- 42_transaction_engine R166, 10_state R27, 70_reset_and_hazards R252: `open` sets `OPEN` and nothing else, once; the
configuration is set before it. The model's choices: that configuration is a move of its own (log entry 16), and that `open`
and configuration while `OPEN = 1`, where they are not enabled, are passed over (log entry 7). -/
def Obligations.OpenAndConfigure : Prop :=
  ∀ (s : State) (c : Params),
    (s.isOpen = false → runMove .openChannel s = .next { s with isOpen := true } ∧
      runMove (.configure c) s = .next { s with cfg := c }) ∧
    (s.isOpen = true → runMove .openChannel s = .next s ∧ runMove (.configure c) s = .next s)

/-- 10_state R33, R20: the state right after reset, in any configuration and for any number of callers: the elements for which
the spec gives a reset value hold it. -/
def Obligations.ResetState : Prop :=
  ∀ (cfg : Params) (n : Nat),
    (State.resetWith cfg n).isOpen = false ∧ (State.resetWith cfg n).phase = .idle ∧
    (State.resetWith cfg n).txCnt = 0 ∧ (State.resetWith cfg n).rxCnt = 0 ∧ (State.resetWith cfg n).wireTx = [] ∧
    (State.resetWith cfg n).callers.length = n ∧
    (∀ c ∈ (State.resetWith cfg n).callers, c.pend.valid = false ∧ c.rsp.valid = false) ∧
    State.reset = State.resetWith Config.params Config.nCallers

/-- 70_reset_and_hazards R250, R251: `rst` in any state, a transaction in flight or not, as a move and as an edge with
`rst = 1`: the core is idle and closed, no request and no response is left, and the environment keeps what it has; at the
edge every output that offers or accepts is 0, and the device may append and one tick passes (log entry 17). -/
def Obligations.ResetDropsTransaction : Prop :=
  (∀ s : State, ∃ t, runMove .reset s = .next t ∧ t.isOpen = false ∧ t.phase = .idle ∧ t.txCnt = 0 ∧ t.rxCnt = 0 ∧
    t.callers.length = s.callers.length ∧ (∀ c ∈ t.callers, c.pend.valid = false ∧ c.rsp.valid = false) ∧
    t.wireTx = s.wireTx ∧ t.rxq = s.rxq ∧ t.now = s.now ∧ t.cfg = s.cfg) ∧
  (∀ (s : State) (p : PortsIn), nextEvent s = .edge p → p.rst = true →
    txValid p.rst s = false ∧ rxReady p.rst s = false ∧
    (∀ i, reqReady p.rst i s = false ∧ rspValid p.rst i s = false) ∧
    ∃ t, step s = .next t ∧ t.isOpen = false ∧ t.phase = .idle ∧ t.txCnt = 0 ∧ t.rxCnt = 0 ∧
      t.callers.length = s.callers.length ∧ (∀ c ∈ t.callers, c.pend.valid = false ∧ c.rsp.valid = false) ∧
      t.wireTx = s.wireTx ∧ t.rxq = s.rxq ++ p.device ∧ t.now = s.now + 1 ∧ t.cfg = s.cfg)

/-- 20_memory R68, R72 to R74: the draws of the model are exactly those the rules admit: every count and every duration within
the bounds, and no other. That an excessive draw is cut is the model's choice (log entry 8). -/
def Obligations.ChannelDrawsExactlyAdmitted : Prop :=
  ∀ (s : State) (k : Nat),
    ((∃ n, writeCount n s = k) ↔ k ≤ 6 - s.txCnt ∧ k ≤ s.cfg.maxXfer) ∧
    ((∃ n, readCount n s = k) ↔ k ≤ 6 - s.rxCnt ∧ k ≤ s.cfg.maxXfer ∧ k ≤ s.rxq.length) ∧
    ((∃ d, readDuration d s = k) ↔ k ≤ s.cfg.tChRead) ∧
    ((∃ d, writeDuration d s = k) ↔ ∀ b, s.cfg.tChWrite = some b → k ≤ b)

/-- 20_memory R75, R76, 42_transaction_engine R192: what the device and time do to the state, and nothing else. Time passes
freely between transactions; while one is in flight it passes by what the duration of an attempt admits, so an advance is
an attempt that moves nothing (R177), and there is none once the deadline has passed or in the decode phase. That a larger
advance is cut to this is the model's choice (log entry 24). -/
def Obligations.DeviceAndTimeMoves : Prop :=
  (∀ (s : State) (bs : List Byte), runMove (.device bs) s = .next { s with rxq := s.rxq ++ bs }) ∧
  (∀ (s : State) (k : Nat),
    (s.phase = .idle → runMove (.advance k) s = .next { s with now := s.now + k }) ∧
    (s.phase = .write → s.now < s.deadline → s.txCnt ≠ 6 → runMove (.advance k) s = writeStep 0 .ok k s) ∧
    (s.phase = .write → s.cfg.tChWrite = none → runMove (.advance k) s = .next { s with now := s.now + k }) ∧
    (s.phase = .write → s.cfg.tChWrite.isSome = true → s.deadline ≤ s.now → runMove (.advance k) s = .next s) ∧
    (s.phase = .read → s.now < s.deadline → s.rxCnt ≠ 6 → runMove (.advance k) s = readStep 0 .ok k s) ∧
    (s.phase = .read → s.deadline ≤ s.now → runMove (.advance k) s = .next s) ∧
    (s.phase = .decode → runMove (.advance k) s = .next s))

/-! ### Invariants and whole-machine rules -/

/-- 10_state R22, R33: the invariant holds right after reset, in any configuration and for any number of callers that 00_scope
R7 admits; and so does `Timely`. -/
def Obligations.CoherentAtReset : Prop :=
  ∀ (cfg : Params) (n : Nat), 1 ≤ n → Coherent (State.resetWith cfg n) ∧ Timely (State.resetWith cfg n)

/-- 10_state R22: every step, whatever the event, keeps the invariant. -/
def Obligations.StepKeepsCoherent : Prop := ∀ s t : State, Coherent s → step s = .next t → Coherent t

/-- 60_exceptions R221: "none are swallowed, none cause process termination": from every state that meets the invariant, a step
has a next state: no error class halts the core. That this holds whatever the next event is rests on disabled moves being
passed over, the model's choice (log entry 7). -/
def Obligations.CoherentNeverStops : Prop := ∀ s : State, Coherent s → ∃ t, step s = .next t

/-- 42_transaction_engine R172: the transition table: where a step without reset can lead from each phase, and what a completed
transaction has delivered. -/
def Obligations.PhaseTransitions : Prop :=
  ∀ s t : State, Coherent s → resetEvent s = false → step s = .next t →
    (s.phase = .idle → t.phase = .idle ∨
      (t.phase = .write ∧ legalOpcode t.reqOp = true ∧ t.txCnt = 0 ∧ t.rxCnt = 0 ∧
        t.deadline = s.now + s.cfg.tDeadline)) ∧
    (s.phase = .write → (t.phase = .write ∧ t.txCnt ≤ 5) ∨ (t.phase = .read ∧ t.txCnt = 6) ∨
      (t.phase = .idle ∧ ∃ r, rspOf s.owner t = some r ∧ r.valid = true ∧
        ((s.deadline ≤ s.now ∧ r.status = .timeout ∧ r.info = join16 0x00#8 (BitVec.ofNat 8 s.txCnt)) ∨
          (s.now < s.deadline ∧ r.status = .writeFailed)))) ∧
    (s.phase = .read → (t.phase = .read ∧ t.rxCnt ≤ 5) ∨ (t.phase = .decode ∧ t.rxCnt = 6) ∨
      (t.phase = .idle ∧ ∃ r, rspOf s.owner t = some r ∧ r.valid = true ∧
        ((s.deadline ≤ s.now ∧ r.status = .timeout ∧ r.info = join16 0x01#8 (BitVec.ofNat 8 s.rxCnt)) ∨
          (s.now < s.deadline ∧ r.status = .readFailed)))) ∧
    (s.phase = .decode → t.phase = .decode ∨
      (t.phase = .idle ∧ ∃ r, rspOf s.owner t = some r ∧ r.valid = true ∧
        r.status = (parseResponse s.rxBuf.toList).status ∧ r.value = (parseResponse s.rxBuf.toList).value ∧
        r.info = (parseResponse s.rxBuf.toList).info))

/-- 42_transaction_engine R170, R183, R185 and 20_memory R82: while a transaction is in flight no step but a reset changes its
owner, request, frame or deadline, and its counts never go down; from a state that meets the invariant it ends only by a
result for its owner, so it cannot be cancelled; and no request that waits is granted, withdrawn or changed. -/
def Obligations.TransactionUndisturbed : Prop :=
  ∀ s t : State, s.phase ≠ .idle → resetEvent s = false → step s = .next t →
    (t.phase ≠ .idle →
      t.owner = s.owner ∧ t.reqOp = s.reqOp ∧ t.reqVal = s.reqVal ∧ t.txBuf = s.txBuf ∧ t.deadline = s.deadline ∧
      s.txCnt ≤ t.txCnt ∧ s.rxCnt ≤ t.rxCnt) ∧
    (t.phase = .idle → Coherent s → rspWaits s.owner t = true) ∧
    (∀ i, waits i s = true → pendOf i t = pendOf i s)

/-- 10_state R27, R28: once open, the channel stays open and its configuration fixed until a reset. -/
def Obligations.OpenUntilReset : Prop :=
  ∀ s t : State, s.isOpen = true → resetEvent s = false → step s = .next t → t.isOpen = true ∧ t.cfg = s.cfg

/-- 42_transaction_engine R171, R173, R175, R184: a step appends to `WIRE_TX` nothing but the next bytes of the frame in flight,
in the write phase only, none once the deadline has passed, and counts them unless the transaction ends; so no byte is
sent twice. -/
def Obligations.WireGetsNextBytesOnly : Prop :=
  ∀ s t : State, step s = .next t →
    ∃ k, k ≤ 6 - s.txCnt ∧ t.wireTx = s.wireTx ++ (s.txBuf.toList.drop s.txCnt).take k ∧
      (s.phase ≠ .write → k = 0) ∧ (s.deadline ≤ s.now → k = 0) ∧
      (s.phase = .write → t.phase ≠ .idle → t.txCnt = s.txCnt + k)

/-- 20_memory R70: over any run, resets and failures included, `WIRE_TX` grows by one piece for each transaction in the order of
the grants, each piece the beginning of that transaction's frame; of the transaction in flight it is exactly what has been
accepted, the whole frame once the write phase is over. -/
def Obligations.WireIsSerialised : Prop :=
  ∀ (s t : State) (k : Nat), Coherent s → s.phase = .idle → runSteps k s = .next t →
    ∃ ks : List Nat, ks.length = (grants k s).length ∧ (∀ n ∈ ks, n ≤ 6) ∧
      t.wireTx = s.wireTx ++ pieces (grants k s) ks ∧
      (t.phase = .write → ks.getLast? = some t.txCnt) ∧
      (t.phase = .read ∨ t.phase = .decode → ks.getLast? = some 6)

/-- 20_memory R64, R65, R73: in the read phase the bytes received so far followed by `RXQ` are what they were, followed by what
the device appended: none is lost, invented, duplicated, reordered or skipped while the transaction lasts. -/
def Obligations.ReplyBytesKeepOrder : Prop :=
  ∀ s t : State, Coherent s → s.phase = .read → step s = .next t → t.phase ≠ .idle →
    t.rxBuf.toList.take t.rxCnt ++ t.rxq = s.rxBuf.toList.take s.rxCnt ++ s.rxq ++ deviceBytesNext s

/-- 10_state R31, 20_memory R68, R73, 60_exceptions R217: a step takes bytes from the head of `RXQ` in the read phase only, at most
those still missing, none once the deadline has passed; nothing else ever empties it, a reset included. That at an edge of
the clock the bytes taken are of those before the edge, and what the device appends comes after, is the model's choice (log
entry 10); that the device may append at an edge with `rst = 1` is its reading (log entry 17). -/
def Obligations.ReceiveQueueNeverFlushed : Prop :=
  ∀ s t : State, step s = .next t →
    ∃ k, k ≤ 6 - s.rxCnt ∧ k ≤ s.rxq.length ∧ t.rxq = s.rxq.drop k ++ deviceBytesNext s ∧
      (s.phase ≠ .read → k = 0) ∧ (s.deadline ≤ s.now → k = 0)

/-- 20_memory R76, 42_transaction_engine R186: `NOW` never decreases, and an edge of the clock adds exactly one; that it does so
with `rst = 1` too is the model's reading (log entry 17). -/
def Obligations.TimeNeverDecreases : Prop :=
  ∀ s t : State, step s = .next t → s.now ≤ t.now ∧ (∀ p, nextEvent s = .edge p → t.now = s.now + 1)

/-- 10_state R22 (a), R23, 42_transaction_engine R179: data registers that no grant has written yet, and `REQ_OP` and `REQ_VAL`
after the grant, are read by no step: two states that agree on everything else make the same step and agree again. After a
reset they agree because what the spec leaves unspecified takes free values there (log entry 6). -/
def Obligations.UnwrittenDataNeverRead : Prop :=
  ∀ s t s' : State, CountsOk s → PhaseOk s → Agree s t → step s = .next s' → ∃ t', step t = .next t' ∧ Agree s' t'

/-- 42_transaction_engine R181, R182 and 60_exceptions R212, R213, R220: without a reset, an undelivered response is never
overwritten; a new one appears only at the owner of the transaction in flight, or at a caller refused for its opcode, and
the lock is free then, so a transaction delivers once; its value is zero unless it is OK, its info zero if it is, and it is
never E_LENGTH. -/
def Obligations.ResultGoesToItsCaller : Prop :=
  ∀ s t : State, Coherent s → resetEvent s = false → step s = .next t → ∀ (j : Nat) (r : Rsp), rspOf j t = some r →
    r.valid = true →
    (rspWaits j s = true → rspOf j s = some r) ∧
    (rspWaits j s = false →
      t.phase = .idle ∧ r.status ≠ .length ∧ (r.status ≠ .ok → r.value = 0x0000#16) ∧ (r.status = .ok → r.info = 0x0000#16) ∧
      ((s.phase ≠ .idle ∧ j = s.owner ∧ r.status ≠ .illegalOpcode) ∨
        (s.phase = .idle ∧ r.status = .illegalOpcode ∧
          ∃ p, pendOf j s = some p ∧ p.valid = true ∧ legalOpcode p.op = false ∧ r.info = zext16 p.op)))

/-- 42_transaction_engine R171, R187: once the deadline has passed, or in the decode phase, the next step of the sequencer ends
the transaction and delivers its result to its owner. -/
def Obligations.SequencerEndsExpiredTransaction : Prop :=
  ∀ s : State, Coherent s → s.phase ≠ .idle → s.deadline ≤ s.now ∨ s.phase = .decode → sequencerEvent s = true →
    ∃ t, step s = .next t ∧ t.phase = .idle ∧ rspWaits s.owner t = true

/-- 42_transaction_engine R187, 60_exceptions R229, abstract semantics: where the configuration is as 00_scope R7 asks, no step
takes a transaction in flight further past its deadline than the longest attempt. That a longer duration or advance is cut,
and does not shut the step out, is the model's choice (log entries 8, 24). -/
def Obligations.StepKeepsTimely : Prop :=
  ∀ s t : State, Coherent s → s.cfg.ok → Timely s → step s = .next t → Timely t

/-- 42_transaction_engine R187, abstract semantics: in a run without reset with a bound on every write attempt, a transaction in
flight has completed once more time has passed than its deadline and the longest attempt admit, whatever the events were;
the step that completes it comes no later than that bound, and, if it is no edge of the clock, it is over by then. Time
that diverges (`TIME_DIVERGES`) passes every bound. The cut of durations and advances is the model's choice (log entries 8,
24). -/
def Obligations.AbstractTransactionCompletes : Prop :=
  ∀ (s t : State) (n b : Nat), Coherent s → s.cfg.ok → Timely s → s.phase ≠ .idle → s.cfg.tChWrite = some b →
    noResetIn n s = true → runSteps n s = .next t → s.deadline + max s.cfg.tChRead b < t.now →
    ∃ (j : Nat) (u v : State), j < n ∧ runSteps j s = .next u ∧ u.phase ≠ .idle ∧ u.owner = s.owner ∧
      u.now ≤ s.deadline + max s.cfg.tChRead b ∧ step u = .next v ∧ v.phase = .idle ∧ rspWaits s.owner v = true ∧
      ((∀ p, nextEvent u ≠ .edge p) → v.now ≤ s.deadline + max s.cfg.tChRead b)

/-- 42_transaction_engine R187, clocked binding: a transaction in flight completes within the ticks left to its deadline and
one, whatever the channel and the device do, if the clock runs without reset. -/
def Obligations.ClockedTransactionCompletes : Prop :=
  ∀ s : State, Coherent s → s.phase ≠ .idle → s.deadline - s.now + 1 ≤ s.script.length →
    (∀ e ∈ s.script.take (s.deadline - s.now + 1), isEdge e = true) →
    ∃ (j : Nat) (t : State), 1 ≤ j ∧ j ≤ s.deadline - s.now + 1 ∧ runSteps j s = .next t ∧ t.phase = .idle ∧
      rspWaits s.owner t = true

/-- 42_transaction_engine R187, clocked binding: no success reaches the caller in fewer than 13 ticks after its grant. -/
def Obligations.ClockedSuccessNeedsThirteenTicks : Prop :=
  ∀ (s t : State) (k : Nat) (r : Rsp), Coherent s → s.phase = .write → s.txCnt = 0 → k ≤ 12 →
    (∀ e ∈ s.script.take k, isEdge e = true) → k ≤ s.script.length → runSteps k s = .next t →
    rspOf s.owner t = some r → r.valid = true → r.status ≠ .ok

/-- 42_transaction_engine R165, R186, R187 (95_test_vectors T15): with a channel that is always ready, a whole reply waiting and
at least 12 ticks left after the grant, 13 edges send the frame, take the reply and deliver what `parseResponse` gives. -/
def Obligations.ClockedSuccessInThirteenTicks : Prop :=
  ∀ (s : State) (ps : List PortsIn) (reply : Frame) (rest : List Byte) (more : List Event), Coherent s →
    s.phase = .write → s.txCnt = 0 → 1 ≤ s.cfg.maxXfer → s.now + 12 ≤ s.deadline → s.rxq = reply.toList ++ rest →
    ps.length = 13 →
    (∀ p ∈ ps, p.rst = false ∧ p.txReady = true ∧ p.txErr = false ∧ p.rxValid = true ∧ p.rxErr = false) →
    s.script = ps.map Event.edge ++ more →
    ∃ t, runSteps 13 s = .next t ∧ t.phase = .idle ∧ t.now = s.now + 13 ∧ t.wireTx = s.wireTx ++ s.txBuf.toList ∧
      rspOf s.owner t = some { valid := true, status := (parseResponse reply.toList).status,
                               value := (parseResponse reply.toList).value, info := (parseResponse reply.toList).info }

/-- 42_transaction_engine R165: one call from its grant to its result, where one write attempt takes all six bytes before the
deadline and one read attempt delivers six: the frame goes out whole and the caller gets what `parseResponse` gives on the
first six bytes of `RXQ`, stale ones included (70_reset_and_hazards R256). That a duration above its bound is cut to it is
the model's choice (log entry 8). -/
def Obligations.SendReturnsTheReply : Prop :=
  ∀ (s : State) (i : Nat) (p : Pend) (reply : Frame) (rest : List Byte) (more : List Event) (d1 d2 : Nat),
    s.isOpen = true → s.phase = .idle → pendOf i s = some p → p.valid = true → legalOpcode p.op = true →
    6 ≤ s.cfg.maxXfer → d1 < s.cfg.tDeadline → s.rxq = reply.toList ++ rest →
    s.script = .move (.grant i) :: .move (.write 6 .ok d1) :: .move (.read 6 .ok d2) :: .move .decode :: more →
    ∃ t, runSteps 4 s = .next t ∧ t.phase = .idle ∧ t.wireTx = s.wireTx ++ (buildFrame p.op p.val).toList ∧
      t.rxq = rest ∧
      rspOf i t = some { valid := true, status := (parseResponse reply.toList).status,
                         value := (parseResponse reply.toList).value, info := (parseResponse reply.toList).info }

/-! ### The clocked port binding -/

/-- 42_transaction_engine R190: at an edge with `rst = 0`, the transmit ports: one byte, `TXBUF[TXCNT]`, is on the wire exactly
if `tx_valid` and `tx_ready` are 1, and `tx_err` while `tx_valid` is 1 ends the transaction with E_WRITE_FAILED. -/
def Obligations.TransmitPorts : Prop :=
  ∀ (s t : State) (p : PortsIn), Coherent s → 1 ≤ s.cfg.maxXfer → nextEvent s = .edge p → p.rst = false →
    step s = .next t →
    t.wireTx = s.wireTx ++ (if txValid p.rst s && p.txReady then [txData s] else []) ∧
    (txValid p.rst s = true → p.txErr = true → t.phase = .idle ∧
      rspOf s.owner t = some { valid := true, status := .writeFailed, value := 0x0000#16, info := 0x0000#16 }) ∧
    (txValid p.rst s = true → p.txErr = false → t.txCnt = s.txCnt + (if p.txReady then 1 else 0))

/-- 42_transaction_engine R190: at an edge with `rst = 0`, the receive ports: the head of `RXQ` is taken exactly if `rx_ready`
and `rx_valid` are 1 and there is one, and `rx_err` while `rx_ready` is 1 ends the transaction with E_READ_FAILED. The
model's choices: with `rx_valid = 1` and `RXQ` empty before the edge nothing is taken, since the draw is cut to `RXQ` (log
entry 8), and bytes the device appends at the same edge are seen at the next (log entry 10). -/
def Obligations.ReceivePorts : Prop :=
  ∀ (s t : State) (p : PortsIn), Coherent s → 1 ≤ s.cfg.maxXfer → nextEvent s = .edge p → p.rst = false →
    step s = .next t →
    t.rxq = (if rxReady p.rst s && p.rxValid then s.rxq.drop 1 else s.rxq) ++ p.device ∧
    (rxReady p.rst s = true → p.rxErr = true → t.phase = .idle ∧
      rspOf s.owner t = some { valid := true, status := .readFailed, value := 0x0000#16, info := 0x0000#16 }) ∧
    (rxReady p.rst s = true → p.rxErr = false → ∀ b rest, p.rxValid = true → s.rxq = b :: rest →
      t.rxCnt = s.rxCnt + 1 ∧ t.rxBuf.get s.rxCnt = b)

/-- 42_transaction_engine R189: at an edge with `rst = 0`, the callers' ports: a request is latched exactly with `req_valid` and
`req_ready`, a response is taken exactly with `rsp_valid` and `rsp_ready`, and `open_req` opens a closed channel. That the
core's step of an edge does not see a request of the same edge, so that it still waits after the edge, is the model's
choice (log entry 10). -/
def Obligations.CallerPorts : Prop :=
  ∀ (s t : State) (p : PortsIn), Coherent s → nextEvent s = .edge p → p.rst = false → step s = .next t →
    t.isOpen = (s.isOpen || p.openReq) ∧
    (∀ (i : Nat) (op : Byte) (val : Word), p.req[i]? = some (some (op, val)) → reqReady p.rst i s = true →
      pendOf i t = some { valid := true, op := op, val := val }) ∧
    (∀ i : Nat, reqReady p.rst i s = false ∨ p.req.getD i none = none → waits i s = false → pendOf i t = pendOf i s) ∧
    (∀ (i : Nat) (r : Rsp), rspOf i s = some r → rspValid p.rst i s = true →
      rspOf i t = some (if p.rspReady.getD i false then { r with valid := false } else r))

/-- 42_transaction_engine R168, R183, R191 (95_test_vectors T17): without an open channel, a free lock and a waiting request no
grant is enabled; in a quiescent state no step of the arbiter or of the sequencer is, and in a settled state no response
step. That a disabled move is passed over, so that nothing changes, is the model's choice (log entry 7). -/
def Obligations.DisabledMovesChangeNothing : Prop :=
  (∀ (s : State) (i : Nat), s.isOpen = false ∨ s.phase ≠ .idle ∨ waits i s = false → runMove (.grant i) s = .next s) ∧
  (∀ s : State, Quiescent s →
    (∀ i, runMove (.grant i) s = .next s) ∧ (∀ n err d, runMove (.write n err d) s = .next s) ∧
    (∀ n err d, runMove (.read n err d) s = .next s) ∧ runMove .decode s = .next s ∧
    (Settled s → ∀ i, runMove (.response i) s = .next s))
end

