-- ==== Sys2Proof/Laws/Codec.lean ====
section
/-!
SUPPORT. What the byte helpers, the structural check and the frame buffers do, once, for every later proof, and that
the tick period is positive.
-/

namespace Sys2Proof

/-- `TICK_PERIOD` is positive (00_scope R7), whatever its two free parts are. -/
theorem tickPeriod_pos : 0 < Config.tickPeriod := by
  unfold Config.tickPeriod
  positivity

@[simp] theorem join16_hi8_lo8 (v : Word) : join16 (hi8 v) (lo8 v) = v := by
  unfold join16 hi8 lo8 zext16
  ext i hi
  simp only [BitVec.getElem_or, BitVec.getElem_shiftLeft, BitVec.getElem_setWidth, BitVec.getLsbD_extractLsb']
  by_cases h : i < 8
  · simp [h, BitVec.getLsbD_eq_getElem hi]
  · simp only [h, decide_false, Bool.not_false, Bool.true_and, Bool.false_and, Bool.or_false]
    have h1 : i - 8 < 8 := by omega
    have h2 : 8 + (i - 8) = i := by omega
    simp [h1, h2, BitVec.getLsbD_eq_getElem hi]

@[simp] theorem hi8_join16 (a b : Byte) : hi8 (join16 a b) = a := by
  unfold join16 hi8 zext16
  ext i hi
  have h : ¬ (8 + i < 8) := by omega
  have h16 : 8 + i < 16 := by omega
  simp [h, h16, BitVec.getLsbD_eq_getElem hi]

@[simp] theorem lo8_join16 (a b : Byte) : lo8 (join16 a b) = b := by
  unfold join16 lo8 zext16
  ext i hi
  have h16 : i < 16 := by omega
  simp [hi, h16]

@[simp] theorem calculateBCC_three (a b c : Byte) : calculateBCC [a, b, c] = a ^^^ b ^^^ c := by
  simp [calculateBCC]

@[simp] theorem Frame.length_toList (f : Frame) : f.toList.length = 6 := rfl

@[simp] theorem frameWith_b1 (a b c : Byte) : (frameWith a b c).b1 = a := rfl
@[simp] theorem frameWith_b2 (a b c : Byte) : (frameWith a b c).b2 = b := rfl
@[simp] theorem frameWith_b3 (a b c : Byte) : (frameWith a b c).b3 = c := rfl

/-- What passes the structural check is exactly a frame of the shape both directions share. -/
theorem structuralCheck_eq_ok_iff (bs : List Byte) (a b c : Byte) :
    structuralCheck bs = .ok (a, b, c) ↔ bs = (frameWith a b c).toList := by
  unfold structuralCheck
  split
  · rename_i b0 b1 b2 b3 b4 b5
    by_cases h1 : (b0 != stx || b4 != etx) = true
    · simp only [h1, if_true]
      constructor
      · intro h; cases h
      · intro h
        simp only [frameWith, Frame.toList, List.cons.injEq] at h
        simp [h.1, h.2.2.2.2.1] at h1
    · by_cases h2 : (calculateBCC [b1, b2, b3] != b5) = true
      · simp only [h1, h2, if_true]
        constructor
        · intro h; cases h
        · intro h
          simp only [frameWith, Frame.toList, List.cons.injEq] at h
          obtain ⟨-, rfl, rfl, rfl, -, rfl, -⟩ := h
          simp at h2
      · simp only [Bool.or_eq_true, bne_iff_ne, ne_eq, not_or, Decidable.not_not] at h1 h2
        obtain ⟨rfl, rfl⟩ := h1
        subst h2
        simp only [bne_self_eq_false, Bool.or_self, Bool.false_eq_true, if_false, Except.ok.injEq, Prod.mk.injEq,
          frameWith, Frame.toList, List.cons.injEq, true_and]
        constructor
        · rintro ⟨rfl, rfl, rfl⟩; simp
        · rintro ⟨rfl, rfl, rfl, -⟩; simp
  · rename_i h
    constructor
    · intro h'; cases h'
    · intro h'; exact absurd h' (h _ _ _ _ _ _)

@[simp] theorem structuralCheck_frameWith (a b c : Byte) :
    structuralCheck (frameWith a b c).toList = .ok (a, b, c) :=
  (structuralCheck_eq_ok_iff _ _ _ _).2 rfl

/-- Where the legal opcodes go. -/
theorem decodeRequest_eq_some_iff (op : Byte) (v : Word) (i : Instr) :
    decodeRequest op v = some i ↔
      (op = opCommand ∧ i = .command v) ∨ (op = opWrite ∧ i = .write v) ∨ (op = opRead ∧ i = .read v) := by
  unfold decodeRequest
  by_cases h1 : op = opCommand
  · subst h1; simp [opCommand, opWrite, opRead, eq_comm]
  · by_cases h2 : op = opWrite
    · subst h2; simp [opCommand, opWrite, opRead, eq_comm]
    · by_cases h3 : op = opRead
      · subst h3; simp [opCommand, opWrite, opRead, eq_comm]
      · simp [h1, h2, h3]

theorem decodeRequest_eq_none_iff (op : Byte) (v : Word) :
    decodeRequest op v = none ↔ legalOpcode op = false := by
  unfold decodeRequest legalOpcode
  by_cases h1 : (op == opCommand) = true
  · simp [h1]
  · by_cases h2 : (op == opWrite) = true
    · simp [h1, h2]
    · by_cases h3 : (op == opRead) = true <;> simp [h1, h2, h3]

/-- Storing bytes in a frame buffer: an offset holds the new byte if it is among those stored, else what it held. -/
theorem Frame.get_fill (f : Frame) (start : Nat) (r : List Byte) (j : Nat) (h : start + r.length ≤ 6) :
    (f.fill start r).get j = if start ≤ j ∧ j < start + r.length then r.getD (j - start) 0#8 else f.get j := by
  induction r generalizing f start with
  | nil => simp only [Frame.fill, List.length_nil, Nat.add_zero]; rw [if_neg (by omega)]
  | cons b bs ih =>
    simp only [List.length_cons] at h
    rw [Frame.fill, ih _ _ (by omega)]
    simp only [List.length_cons]
    have hset : (f.set start b).get j = if j = start then b else f.get j := by
      have hs : start < 6 := by omega
      by_cases hj : j < 6
      · interval_cases start <;> interval_cases j <;> rfl
      · rw [if_neg (by omega)]
        obtain ⟨k, rfl⟩ : ∃ k, j = k + 6 := ⟨j - 6, by omega⟩
        rfl
    by_cases hj : j = start
    · subst hj
      rw [if_neg (by omega), if_pos (by omega), hset, if_pos rfl]
      simp
    · by_cases hr : start + 1 ≤ j ∧ j < start + 1 + bs.length
      · rw [if_pos hr, if_pos (by omega)]
        obtain ⟨k, hk⟩ : ∃ k, j - start = k + 1 := ⟨j - start - 1, by omega⟩
        rw [hk, show j - (start + 1) = k by omega]
        simp
      · rw [if_neg hr, if_neg (by omega), hset, if_neg hj]

end Sys2Proof
end

