-- ==== Sys2Proof/Laws/State.lean ====
section
/-!
SUPPORT. One lemma for each field and each named operation over the state, so that no later proof unfolds a record
update.
-/

namespace Sys2Proof.Machine

/-! ### `setPend` -/

@[simp] theorem setPend_isOpen (i : Nat) (p : Pend) (s : State) :
    (setPend i p s).isOpen = s.isOpen := rfl

@[simp] theorem setPend_phase (i : Nat) (p : Pend) (s : State) :
    (setPend i p s).phase = s.phase := rfl

@[simp] theorem setPend_owner (i : Nat) (p : Pend) (s : State) :
    (setPend i p s).owner = s.owner := rfl

@[simp] theorem setPend_reqOp (i : Nat) (p : Pend) (s : State) :
    (setPend i p s).reqOp = s.reqOp := rfl

@[simp] theorem setPend_reqVal (i : Nat) (p : Pend) (s : State) :
    (setPend i p s).reqVal = s.reqVal := rfl

@[simp] theorem setPend_txBuf (i : Nat) (p : Pend) (s : State) :
    (setPend i p s).txBuf = s.txBuf := rfl

@[simp] theorem setPend_txCnt (i : Nat) (p : Pend) (s : State) :
    (setPend i p s).txCnt = s.txCnt := rfl

@[simp] theorem setPend_rxBuf (i : Nat) (p : Pend) (s : State) :
    (setPend i p s).rxBuf = s.rxBuf := rfl

@[simp] theorem setPend_rxCnt (i : Nat) (p : Pend) (s : State) :
    (setPend i p s).rxCnt = s.rxCnt := rfl

@[simp] theorem setPend_deadline (i : Nat) (p : Pend) (s : State) :
    (setPend i p s).deadline = s.deadline := rfl

@[simp] theorem setPend_callers (i : Nat) (p : Pend) (s : State) :
    (setPend i p s).callers = s.callers.modify i (fun c => { c with pend := p }) := rfl

@[simp] theorem setPend_now (i : Nat) (p : Pend) (s : State) :
    (setPend i p s).now = s.now := rfl

@[simp] theorem setPend_wireTx (i : Nat) (p : Pend) (s : State) :
    (setPend i p s).wireTx = s.wireTx := rfl

@[simp] theorem setPend_rxq (i : Nat) (p : Pend) (s : State) :
    (setPend i p s).rxq = s.rxq := rfl

@[simp] theorem setPend_cfg (i : Nat) (p : Pend) (s : State) :
    (setPend i p s).cfg = s.cfg := rfl

@[simp] theorem setPend_script (i : Nat) (p : Pend) (s : State) :
    (setPend i p s).script = s.script := rfl

@[simp] theorem setPend_draws (i : Nat) (p : Pend) (s : State) :
    (setPend i p s).draws = s.draws := rfl

/-! ### `setRsp` -/

@[simp] theorem setRsp_isOpen (i : Nat) (r : Rsp) (s : State) :
    (setRsp i r s).isOpen = s.isOpen := rfl

@[simp] theorem setRsp_phase (i : Nat) (r : Rsp) (s : State) :
    (setRsp i r s).phase = s.phase := rfl

@[simp] theorem setRsp_owner (i : Nat) (r : Rsp) (s : State) :
    (setRsp i r s).owner = s.owner := rfl

@[simp] theorem setRsp_reqOp (i : Nat) (r : Rsp) (s : State) :
    (setRsp i r s).reqOp = s.reqOp := rfl

@[simp] theorem setRsp_reqVal (i : Nat) (r : Rsp) (s : State) :
    (setRsp i r s).reqVal = s.reqVal := rfl

@[simp] theorem setRsp_txBuf (i : Nat) (r : Rsp) (s : State) :
    (setRsp i r s).txBuf = s.txBuf := rfl

@[simp] theorem setRsp_txCnt (i : Nat) (r : Rsp) (s : State) :
    (setRsp i r s).txCnt = s.txCnt := rfl

@[simp] theorem setRsp_rxBuf (i : Nat) (r : Rsp) (s : State) :
    (setRsp i r s).rxBuf = s.rxBuf := rfl

@[simp] theorem setRsp_rxCnt (i : Nat) (r : Rsp) (s : State) :
    (setRsp i r s).rxCnt = s.rxCnt := rfl

@[simp] theorem setRsp_deadline (i : Nat) (r : Rsp) (s : State) :
    (setRsp i r s).deadline = s.deadline := rfl

@[simp] theorem setRsp_callers (i : Nat) (r : Rsp) (s : State) :
    (setRsp i r s).callers = s.callers.modify i (fun c => { c with rsp := r }) := rfl

@[simp] theorem setRsp_now (i : Nat) (r : Rsp) (s : State) :
    (setRsp i r s).now = s.now := rfl

@[simp] theorem setRsp_wireTx (i : Nat) (r : Rsp) (s : State) :
    (setRsp i r s).wireTx = s.wireTx := rfl

@[simp] theorem setRsp_rxq (i : Nat) (r : Rsp) (s : State) :
    (setRsp i r s).rxq = s.rxq := rfl

@[simp] theorem setRsp_cfg (i : Nat) (r : Rsp) (s : State) :
    (setRsp i r s).cfg = s.cfg := rfl

@[simp] theorem setRsp_script (i : Nat) (r : Rsp) (s : State) :
    (setRsp i r s).script = s.script := rfl

@[simp] theorem setRsp_draws (i : Nat) (r : Rsp) (s : State) :
    (setRsp i r s).draws = s.draws := rfl

/-! ### `latchRequest` -/

@[simp] theorem latchRequest_isOpen (i : Nat) (p : Pend) (s : State) :
    (latchRequest i p s).isOpen = s.isOpen := rfl

@[simp] theorem latchRequest_phase (i : Nat) (p : Pend) (s : State) :
    (latchRequest i p s).phase = s.phase := rfl

@[simp] theorem latchRequest_owner (i : Nat) (p : Pend) (s : State) :
    (latchRequest i p s).owner = i := rfl

@[simp] theorem latchRequest_reqOp (i : Nat) (p : Pend) (s : State) :
    (latchRequest i p s).reqOp = p.op := rfl

@[simp] theorem latchRequest_reqVal (i : Nat) (p : Pend) (s : State) :
    (latchRequest i p s).reqVal = p.val := rfl

@[simp] theorem latchRequest_txBuf (i : Nat) (p : Pend) (s : State) :
    (latchRequest i p s).txBuf = s.txBuf := rfl

@[simp] theorem latchRequest_txCnt (i : Nat) (p : Pend) (s : State) :
    (latchRequest i p s).txCnt = s.txCnt := rfl

@[simp] theorem latchRequest_rxBuf (i : Nat) (p : Pend) (s : State) :
    (latchRequest i p s).rxBuf = s.rxBuf := rfl

@[simp] theorem latchRequest_rxCnt (i : Nat) (p : Pend) (s : State) :
    (latchRequest i p s).rxCnt = s.rxCnt := rfl

@[simp] theorem latchRequest_deadline (i : Nat) (p : Pend) (s : State) :
    (latchRequest i p s).deadline = s.deadline := rfl

@[simp] theorem latchRequest_callers (i : Nat) (p : Pend) (s : State) :
    (latchRequest i p s).callers = (setPend i { p with valid := false } s).callers := rfl

@[simp] theorem latchRequest_now (i : Nat) (p : Pend) (s : State) :
    (latchRequest i p s).now = s.now := rfl

@[simp] theorem latchRequest_wireTx (i : Nat) (p : Pend) (s : State) :
    (latchRequest i p s).wireTx = s.wireTx := rfl

@[simp] theorem latchRequest_rxq (i : Nat) (p : Pend) (s : State) :
    (latchRequest i p s).rxq = s.rxq := rfl

@[simp] theorem latchRequest_cfg (i : Nat) (p : Pend) (s : State) :
    (latchRequest i p s).cfg = s.cfg := rfl

@[simp] theorem latchRequest_script (i : Nat) (p : Pend) (s : State) :
    (latchRequest i p s).script = s.script := rfl

@[simp] theorem latchRequest_draws (i : Nat) (p : Pend) (s : State) :
    (latchRequest i p s).draws = s.draws := rfl

/-! ### `startTransaction` -/

@[simp] theorem startTransaction_isOpen (op : Byte) (v : Word) (s : State) :
    (startTransaction op v s).isOpen = s.isOpen := rfl

@[simp] theorem startTransaction_phase (op : Byte) (v : Word) (s : State) :
    (startTransaction op v s).phase = .write := rfl

@[simp] theorem startTransaction_owner (op : Byte) (v : Word) (s : State) :
    (startTransaction op v s).owner = s.owner := rfl

@[simp] theorem startTransaction_reqOp (op : Byte) (v : Word) (s : State) :
    (startTransaction op v s).reqOp = op := rfl

@[simp] theorem startTransaction_reqVal (op : Byte) (v : Word) (s : State) :
    (startTransaction op v s).reqVal = v := rfl

@[simp] theorem startTransaction_txBuf (op : Byte) (v : Word) (s : State) :
    (startTransaction op v s).txBuf = buildFrame op v := rfl

@[simp] theorem startTransaction_txCnt (op : Byte) (v : Word) (s : State) :
    (startTransaction op v s).txCnt = 0 := rfl

@[simp] theorem startTransaction_rxBuf (op : Byte) (v : Word) (s : State) :
    (startTransaction op v s).rxBuf = s.rxBuf := rfl

@[simp] theorem startTransaction_rxCnt (op : Byte) (v : Word) (s : State) :
    (startTransaction op v s).rxCnt = 0 := rfl

@[simp] theorem startTransaction_deadline (op : Byte) (v : Word) (s : State) :
    (startTransaction op v s).deadline = s.now + s.cfg.tDeadline := rfl

@[simp] theorem startTransaction_callers (op : Byte) (v : Word) (s : State) :
    (startTransaction op v s).callers = s.callers := rfl

@[simp] theorem startTransaction_now (op : Byte) (v : Word) (s : State) :
    (startTransaction op v s).now = s.now := rfl

@[simp] theorem startTransaction_wireTx (op : Byte) (v : Word) (s : State) :
    (startTransaction op v s).wireTx = s.wireTx := rfl

@[simp] theorem startTransaction_rxq (op : Byte) (v : Word) (s : State) :
    (startTransaction op v s).rxq = s.rxq := rfl

@[simp] theorem startTransaction_cfg (op : Byte) (v : Word) (s : State) :
    (startTransaction op v s).cfg = s.cfg := rfl

@[simp] theorem startTransaction_script (op : Byte) (v : Word) (s : State) :
    (startTransaction op v s).script = s.script := rfl

@[simp] theorem startTransaction_draws (op : Byte) (v : Word) (s : State) :
    (startTransaction op v s).draws = s.draws := rfl

/-! ### `chWrite` -/

@[simp] theorem chWrite_isOpen (k : Nat) (d : Nat) (s : State) :
    (chWrite k d s).isOpen = s.isOpen := rfl

@[simp] theorem chWrite_phase (k : Nat) (d : Nat) (s : State) :
    (chWrite k d s).phase = s.phase := rfl

@[simp] theorem chWrite_owner (k : Nat) (d : Nat) (s : State) :
    (chWrite k d s).owner = s.owner := rfl

@[simp] theorem chWrite_reqOp (k : Nat) (d : Nat) (s : State) :
    (chWrite k d s).reqOp = s.reqOp := rfl

@[simp] theorem chWrite_reqVal (k : Nat) (d : Nat) (s : State) :
    (chWrite k d s).reqVal = s.reqVal := rfl

@[simp] theorem chWrite_txBuf (k : Nat) (d : Nat) (s : State) :
    (chWrite k d s).txBuf = s.txBuf := rfl

@[simp] theorem chWrite_txCnt (k : Nat) (d : Nat) (s : State) :
    (chWrite k d s).txCnt = s.txCnt := rfl

@[simp] theorem chWrite_rxBuf (k : Nat) (d : Nat) (s : State) :
    (chWrite k d s).rxBuf = s.rxBuf := rfl

@[simp] theorem chWrite_rxCnt (k : Nat) (d : Nat) (s : State) :
    (chWrite k d s).rxCnt = s.rxCnt := rfl

@[simp] theorem chWrite_deadline (k : Nat) (d : Nat) (s : State) :
    (chWrite k d s).deadline = s.deadline := rfl

@[simp] theorem chWrite_callers (k : Nat) (d : Nat) (s : State) :
    (chWrite k d s).callers = s.callers := rfl

@[simp] theorem chWrite_now (k : Nat) (d : Nat) (s : State) :
    (chWrite k d s).now = s.now + d := rfl

@[simp] theorem chWrite_wireTx (k : Nat) (d : Nat) (s : State) :
    (chWrite k d s).wireTx = s.wireTx ++ (offered s).take k := rfl

@[simp] theorem chWrite_rxq (k : Nat) (d : Nat) (s : State) :
    (chWrite k d s).rxq = s.rxq := rfl

@[simp] theorem chWrite_cfg (k : Nat) (d : Nat) (s : State) :
    (chWrite k d s).cfg = s.cfg := rfl

@[simp] theorem chWrite_script (k : Nat) (d : Nat) (s : State) :
    (chWrite k d s).script = s.script := rfl

@[simp] theorem chWrite_draws (k : Nat) (d : Nat) (s : State) :
    (chWrite k d s).draws = s.draws := rfl

/-! ### `chRead` -/

@[simp] theorem chRead_isOpen (k : Nat) (d : Nat) (s : State) :
    (chRead k d s).isOpen = s.isOpen := rfl

@[simp] theorem chRead_phase (k : Nat) (d : Nat) (s : State) :
    (chRead k d s).phase = s.phase := rfl

@[simp] theorem chRead_owner (k : Nat) (d : Nat) (s : State) :
    (chRead k d s).owner = s.owner := rfl

@[simp] theorem chRead_reqOp (k : Nat) (d : Nat) (s : State) :
    (chRead k d s).reqOp = s.reqOp := rfl

@[simp] theorem chRead_reqVal (k : Nat) (d : Nat) (s : State) :
    (chRead k d s).reqVal = s.reqVal := rfl

@[simp] theorem chRead_txBuf (k : Nat) (d : Nat) (s : State) :
    (chRead k d s).txBuf = s.txBuf := rfl

@[simp] theorem chRead_txCnt (k : Nat) (d : Nat) (s : State) :
    (chRead k d s).txCnt = s.txCnt := rfl

@[simp] theorem chRead_rxBuf (k : Nat) (d : Nat) (s : State) :
    (chRead k d s).rxBuf = s.rxBuf := rfl

@[simp] theorem chRead_rxCnt (k : Nat) (d : Nat) (s : State) :
    (chRead k d s).rxCnt = s.rxCnt := rfl

@[simp] theorem chRead_deadline (k : Nat) (d : Nat) (s : State) :
    (chRead k d s).deadline = s.deadline := rfl

@[simp] theorem chRead_callers (k : Nat) (d : Nat) (s : State) :
    (chRead k d s).callers = s.callers := rfl

@[simp] theorem chRead_now (k : Nat) (d : Nat) (s : State) :
    (chRead k d s).now = s.now + d := rfl

@[simp] theorem chRead_wireTx (k : Nat) (d : Nat) (s : State) :
    (chRead k d s).wireTx = s.wireTx := rfl

@[simp] theorem chRead_rxq (k : Nat) (d : Nat) (s : State) :
    (chRead k d s).rxq = s.rxq.drop k := rfl

@[simp] theorem chRead_cfg (k : Nat) (d : Nat) (s : State) :
    (chRead k d s).cfg = s.cfg := rfl

@[simp] theorem chRead_script (k : Nat) (d : Nat) (s : State) :
    (chRead k d s).script = s.script := rfl

@[simp] theorem chRead_draws (k : Nat) (d : Nat) (s : State) :
    (chRead k d s).draws = s.draws := rfl

/-! ### `countSent` -/

@[simp] theorem countSent_isOpen (k : Nat) (s : State) :
    (countSent k s).isOpen = s.isOpen := rfl

@[simp] theorem countSent_phase (k : Nat) (s : State) :
    (countSent k s).phase = if s.txCnt + k = frameLen then .read else s.phase := rfl

@[simp] theorem countSent_owner (k : Nat) (s : State) :
    (countSent k s).owner = s.owner := rfl

@[simp] theorem countSent_reqOp (k : Nat) (s : State) :
    (countSent k s).reqOp = s.reqOp := rfl

@[simp] theorem countSent_reqVal (k : Nat) (s : State) :
    (countSent k s).reqVal = s.reqVal := rfl

@[simp] theorem countSent_txBuf (k : Nat) (s : State) :
    (countSent k s).txBuf = s.txBuf := rfl

@[simp] theorem countSent_txCnt (k : Nat) (s : State) :
    (countSent k s).txCnt = s.txCnt + k := rfl

@[simp] theorem countSent_rxBuf (k : Nat) (s : State) :
    (countSent k s).rxBuf = s.rxBuf := rfl

@[simp] theorem countSent_rxCnt (k : Nat) (s : State) :
    (countSent k s).rxCnt = s.rxCnt := rfl

@[simp] theorem countSent_deadline (k : Nat) (s : State) :
    (countSent k s).deadline = s.deadline := rfl

@[simp] theorem countSent_callers (k : Nat) (s : State) :
    (countSent k s).callers = s.callers := rfl

@[simp] theorem countSent_now (k : Nat) (s : State) :
    (countSent k s).now = s.now := rfl

@[simp] theorem countSent_wireTx (k : Nat) (s : State) :
    (countSent k s).wireTx = s.wireTx := rfl

@[simp] theorem countSent_rxq (k : Nat) (s : State) :
    (countSent k s).rxq = s.rxq := rfl

@[simp] theorem countSent_cfg (k : Nat) (s : State) :
    (countSent k s).cfg = s.cfg := rfl

@[simp] theorem countSent_script (k : Nat) (s : State) :
    (countSent k s).script = s.script := rfl

@[simp] theorem countSent_draws (k : Nat) (s : State) :
    (countSent k s).draws = s.draws := rfl

/-! ### `storeReply` -/

@[simp] theorem storeReply_isOpen (r : List Byte) (s : State) :
    (storeReply r s).isOpen = s.isOpen := rfl

@[simp] theorem storeReply_phase (r : List Byte) (s : State) :
    (storeReply r s).phase = if s.rxCnt + r.length = frameLen then .decode else s.phase := rfl

@[simp] theorem storeReply_owner (r : List Byte) (s : State) :
    (storeReply r s).owner = s.owner := rfl

@[simp] theorem storeReply_reqOp (r : List Byte) (s : State) :
    (storeReply r s).reqOp = s.reqOp := rfl

@[simp] theorem storeReply_reqVal (r : List Byte) (s : State) :
    (storeReply r s).reqVal = s.reqVal := rfl

@[simp] theorem storeReply_txBuf (r : List Byte) (s : State) :
    (storeReply r s).txBuf = s.txBuf := rfl

@[simp] theorem storeReply_txCnt (r : List Byte) (s : State) :
    (storeReply r s).txCnt = s.txCnt := rfl

@[simp] theorem storeReply_rxBuf (r : List Byte) (s : State) :
    (storeReply r s).rxBuf = s.rxBuf.fill s.rxCnt r := rfl

@[simp] theorem storeReply_rxCnt (r : List Byte) (s : State) :
    (storeReply r s).rxCnt = s.rxCnt + r.length := rfl

@[simp] theorem storeReply_deadline (r : List Byte) (s : State) :
    (storeReply r s).deadline = s.deadline := rfl

@[simp] theorem storeReply_callers (r : List Byte) (s : State) :
    (storeReply r s).callers = s.callers := rfl

@[simp] theorem storeReply_now (r : List Byte) (s : State) :
    (storeReply r s).now = s.now := rfl

@[simp] theorem storeReply_wireTx (r : List Byte) (s : State) :
    (storeReply r s).wireTx = s.wireTx := rfl

@[simp] theorem storeReply_rxq (r : List Byte) (s : State) :
    (storeReply r s).rxq = s.rxq := rfl

@[simp] theorem storeReply_cfg (r : List Byte) (s : State) :
    (storeReply r s).cfg = s.cfg := rfl

@[simp] theorem storeReply_script (r : List Byte) (s : State) :
    (storeReply r s).script = s.script := rfl

@[simp] theorem storeReply_draws (r : List Byte) (s : State) :
    (storeReply r s).draws = s.draws := rfl

/-! ### `advanceTime` -/

@[simp] theorem advanceTime_isOpen (k : Nat) (s : State) :
    (advanceTime k s).isOpen = s.isOpen := rfl

@[simp] theorem advanceTime_phase (k : Nat) (s : State) :
    (advanceTime k s).phase = s.phase := rfl

@[simp] theorem advanceTime_owner (k : Nat) (s : State) :
    (advanceTime k s).owner = s.owner := rfl

@[simp] theorem advanceTime_reqOp (k : Nat) (s : State) :
    (advanceTime k s).reqOp = s.reqOp := rfl

@[simp] theorem advanceTime_reqVal (k : Nat) (s : State) :
    (advanceTime k s).reqVal = s.reqVal := rfl

@[simp] theorem advanceTime_txBuf (k : Nat) (s : State) :
    (advanceTime k s).txBuf = s.txBuf := rfl

@[simp] theorem advanceTime_txCnt (k : Nat) (s : State) :
    (advanceTime k s).txCnt = s.txCnt := rfl

@[simp] theorem advanceTime_rxBuf (k : Nat) (s : State) :
    (advanceTime k s).rxBuf = s.rxBuf := rfl

@[simp] theorem advanceTime_rxCnt (k : Nat) (s : State) :
    (advanceTime k s).rxCnt = s.rxCnt := rfl

@[simp] theorem advanceTime_deadline (k : Nat) (s : State) :
    (advanceTime k s).deadline = s.deadline := rfl

@[simp] theorem advanceTime_callers (k : Nat) (s : State) :
    (advanceTime k s).callers = s.callers := rfl

@[simp] theorem advanceTime_now (k : Nat) (s : State) :
    (advanceTime k s).now = s.now + k := rfl

@[simp] theorem advanceTime_wireTx (k : Nat) (s : State) :
    (advanceTime k s).wireTx = s.wireTx := rfl

@[simp] theorem advanceTime_rxq (k : Nat) (s : State) :
    (advanceTime k s).rxq = s.rxq := rfl

@[simp] theorem advanceTime_cfg (k : Nat) (s : State) :
    (advanceTime k s).cfg = s.cfg := rfl

@[simp] theorem advanceTime_script (k : Nat) (s : State) :
    (advanceTime k s).script = s.script := rfl

@[simp] theorem advanceTime_draws (k : Nat) (s : State) :
    (advanceTime k s).draws = s.draws := rfl

/-! ### `appendRxq` -/

@[simp] theorem appendRxq_isOpen (bs : List Byte) (s : State) :
    (appendRxq bs s).isOpen = s.isOpen := rfl

@[simp] theorem appendRxq_phase (bs : List Byte) (s : State) :
    (appendRxq bs s).phase = s.phase := rfl

@[simp] theorem appendRxq_owner (bs : List Byte) (s : State) :
    (appendRxq bs s).owner = s.owner := rfl

@[simp] theorem appendRxq_reqOp (bs : List Byte) (s : State) :
    (appendRxq bs s).reqOp = s.reqOp := rfl

@[simp] theorem appendRxq_reqVal (bs : List Byte) (s : State) :
    (appendRxq bs s).reqVal = s.reqVal := rfl

@[simp] theorem appendRxq_txBuf (bs : List Byte) (s : State) :
    (appendRxq bs s).txBuf = s.txBuf := rfl

@[simp] theorem appendRxq_txCnt (bs : List Byte) (s : State) :
    (appendRxq bs s).txCnt = s.txCnt := rfl

@[simp] theorem appendRxq_rxBuf (bs : List Byte) (s : State) :
    (appendRxq bs s).rxBuf = s.rxBuf := rfl

@[simp] theorem appendRxq_rxCnt (bs : List Byte) (s : State) :
    (appendRxq bs s).rxCnt = s.rxCnt := rfl

@[simp] theorem appendRxq_deadline (bs : List Byte) (s : State) :
    (appendRxq bs s).deadline = s.deadline := rfl

@[simp] theorem appendRxq_callers (bs : List Byte) (s : State) :
    (appendRxq bs s).callers = s.callers := rfl

@[simp] theorem appendRxq_now (bs : List Byte) (s : State) :
    (appendRxq bs s).now = s.now := rfl

@[simp] theorem appendRxq_wireTx (bs : List Byte) (s : State) :
    (appendRxq bs s).wireTx = s.wireTx := rfl

@[simp] theorem appendRxq_rxq (bs : List Byte) (s : State) :
    (appendRxq bs s).rxq = s.rxq ++ bs := rfl

@[simp] theorem appendRxq_cfg (bs : List Byte) (s : State) :
    (appendRxq bs s).cfg = s.cfg := rfl

@[simp] theorem appendRxq_script (bs : List Byte) (s : State) :
    (appendRxq bs s).script = s.script := rfl

@[simp] theorem appendRxq_draws (bs : List Byte) (s : State) :
    (appendRxq bs s).draws = s.draws := rfl

/-! ### `endEdge` -/

@[simp] theorem endEdge_isOpen (p : PortsIn) (s : State) :
    (endEdge p s).isOpen = s.isOpen := rfl

@[simp] theorem endEdge_phase (p : PortsIn) (s : State) :
    (endEdge p s).phase = s.phase := rfl

@[simp] theorem endEdge_owner (p : PortsIn) (s : State) :
    (endEdge p s).owner = s.owner := rfl

@[simp] theorem endEdge_reqOp (p : PortsIn) (s : State) :
    (endEdge p s).reqOp = s.reqOp := rfl

@[simp] theorem endEdge_reqVal (p : PortsIn) (s : State) :
    (endEdge p s).reqVal = s.reqVal := rfl

@[simp] theorem endEdge_txBuf (p : PortsIn) (s : State) :
    (endEdge p s).txBuf = s.txBuf := rfl

@[simp] theorem endEdge_txCnt (p : PortsIn) (s : State) :
    (endEdge p s).txCnt = s.txCnt := rfl

@[simp] theorem endEdge_rxBuf (p : PortsIn) (s : State) :
    (endEdge p s).rxBuf = s.rxBuf := rfl

@[simp] theorem endEdge_rxCnt (p : PortsIn) (s : State) :
    (endEdge p s).rxCnt = s.rxCnt := rfl

@[simp] theorem endEdge_deadline (p : PortsIn) (s : State) :
    (endEdge p s).deadline = s.deadline := rfl

@[simp] theorem endEdge_callers (p : PortsIn) (s : State) :
    (endEdge p s).callers = s.callers := rfl

@[simp] theorem endEdge_now (p : PortsIn) (s : State) :
    (endEdge p s).now = s.now + 1 := rfl

@[simp] theorem endEdge_wireTx (p : PortsIn) (s : State) :
    (endEdge p s).wireTx = s.wireTx := rfl

@[simp] theorem endEdge_rxq (p : PortsIn) (s : State) :
    (endEdge p s).rxq = s.rxq ++ p.device := rfl

@[simp] theorem endEdge_cfg (p : PortsIn) (s : State) :
    (endEdge p s).cfg = s.cfg := rfl

@[simp] theorem endEdge_script (p : PortsIn) (s : State) :
    (endEdge p s).script = s.script := rfl

@[simp] theorem endEdge_draws (p : PortsIn) (s : State) :
    (endEdge p s).draws = s.draws := rfl

/-! ### `resetCore` -/

@[simp] theorem resetCore_isOpen (s : State) :
    (resetCore s).isOpen = false := rfl

@[simp] theorem resetCore_phase (s : State) :
    (resetCore s).phase = .idle := rfl

@[simp] theorem resetCore_owner (s : State) :
    (resetCore s).owner = Config.freeNat s.draws 0 := rfl

@[simp] theorem resetCore_reqOp (s : State) :
    (resetCore s).reqOp = Config.freeByte s.draws 0 := rfl

@[simp] theorem resetCore_reqVal (s : State) :
    (resetCore s).reqVal = Config.freeWord s.draws 0 := rfl

@[simp] theorem resetCore_txBuf (s : State) :
    (resetCore s).txBuf = freeFrame s.draws 1 := rfl

@[simp] theorem resetCore_txCnt (s : State) :
    (resetCore s).txCnt = 0 := rfl

@[simp] theorem resetCore_rxBuf (s : State) :
    (resetCore s).rxBuf = freeFrame s.draws 7 := rfl

@[simp] theorem resetCore_rxCnt (s : State) :
    (resetCore s).rxCnt = 0 := rfl

@[simp] theorem resetCore_deadline (s : State) :
    (resetCore s).deadline = Config.freeNat s.draws 1 := rfl

@[simp] theorem resetCore_callers (s : State) :
    (resetCore s).callers = (List.range s.callers.length).map (freePort s.draws) := rfl

@[simp] theorem resetCore_now (s : State) :
    (resetCore s).now = s.now := rfl

@[simp] theorem resetCore_wireTx (s : State) :
    (resetCore s).wireTx = s.wireTx := rfl

@[simp] theorem resetCore_rxq (s : State) :
    (resetCore s).rxq = s.rxq := rfl

@[simp] theorem resetCore_cfg (s : State) :
    (resetCore s).cfg = s.cfg := rfl

@[simp] theorem resetCore_script (s : State) :
    (resetCore s).script = s.script := rfl

@[simp] theorem resetCore_draws (s : State) :
    (resetCore s).draws = s.draws + 1 := rfl

/-! ### `openStep` -/

@[simp] theorem openStep_phase (s : State) :
    (openStep s).phase = s.phase := by
  unfold openStep; split <;> rfl

@[simp] theorem openStep_owner (s : State) :
    (openStep s).owner = s.owner := by
  unfold openStep; split <;> rfl

@[simp] theorem openStep_reqOp (s : State) :
    (openStep s).reqOp = s.reqOp := by
  unfold openStep; split <;> rfl

@[simp] theorem openStep_reqVal (s : State) :
    (openStep s).reqVal = s.reqVal := by
  unfold openStep; split <;> rfl

@[simp] theorem openStep_txBuf (s : State) :
    (openStep s).txBuf = s.txBuf := by
  unfold openStep; split <;> rfl

@[simp] theorem openStep_txCnt (s : State) :
    (openStep s).txCnt = s.txCnt := by
  unfold openStep; split <;> rfl

@[simp] theorem openStep_rxBuf (s : State) :
    (openStep s).rxBuf = s.rxBuf := by
  unfold openStep; split <;> rfl

@[simp] theorem openStep_rxCnt (s : State) :
    (openStep s).rxCnt = s.rxCnt := by
  unfold openStep; split <;> rfl

@[simp] theorem openStep_deadline (s : State) :
    (openStep s).deadline = s.deadline := by
  unfold openStep; split <;> rfl

@[simp] theorem openStep_callers (s : State) :
    (openStep s).callers = s.callers := by
  unfold openStep; split <;> rfl

@[simp] theorem openStep_now (s : State) :
    (openStep s).now = s.now := by
  unfold openStep; split <;> rfl

@[simp] theorem openStep_wireTx (s : State) :
    (openStep s).wireTx = s.wireTx := by
  unfold openStep; split <;> rfl

@[simp] theorem openStep_rxq (s : State) :
    (openStep s).rxq = s.rxq := by
  unfold openStep; split <;> rfl

@[simp] theorem openStep_cfg (s : State) :
    (openStep s).cfg = s.cfg := by
  unfold openStep; split <;> rfl

@[simp] theorem openStep_script (s : State) :
    (openStep s).script = s.script := by
  unfold openStep; split <;> rfl

@[simp] theorem openStep_draws (s : State) :
    (openStep s).draws = s.draws := by
  unfold openStep; split <;> rfl

/-! ### `configureStep` -/

@[simp] theorem configureStep_isOpen (c : Params) (s : State) :
    (configureStep c s).isOpen = s.isOpen := by
  unfold configureStep; split <;> rfl

@[simp] theorem configureStep_phase (c : Params) (s : State) :
    (configureStep c s).phase = s.phase := by
  unfold configureStep; split <;> rfl

@[simp] theorem configureStep_owner (c : Params) (s : State) :
    (configureStep c s).owner = s.owner := by
  unfold configureStep; split <;> rfl

@[simp] theorem configureStep_reqOp (c : Params) (s : State) :
    (configureStep c s).reqOp = s.reqOp := by
  unfold configureStep; split <;> rfl

@[simp] theorem configureStep_reqVal (c : Params) (s : State) :
    (configureStep c s).reqVal = s.reqVal := by
  unfold configureStep; split <;> rfl

@[simp] theorem configureStep_txBuf (c : Params) (s : State) :
    (configureStep c s).txBuf = s.txBuf := by
  unfold configureStep; split <;> rfl

@[simp] theorem configureStep_txCnt (c : Params) (s : State) :
    (configureStep c s).txCnt = s.txCnt := by
  unfold configureStep; split <;> rfl

@[simp] theorem configureStep_rxBuf (c : Params) (s : State) :
    (configureStep c s).rxBuf = s.rxBuf := by
  unfold configureStep; split <;> rfl

@[simp] theorem configureStep_rxCnt (c : Params) (s : State) :
    (configureStep c s).rxCnt = s.rxCnt := by
  unfold configureStep; split <;> rfl

@[simp] theorem configureStep_deadline (c : Params) (s : State) :
    (configureStep c s).deadline = s.deadline := by
  unfold configureStep; split <;> rfl

@[simp] theorem configureStep_callers (c : Params) (s : State) :
    (configureStep c s).callers = s.callers := by
  unfold configureStep; split <;> rfl

@[simp] theorem configureStep_now (c : Params) (s : State) :
    (configureStep c s).now = s.now := by
  unfold configureStep; split <;> rfl

@[simp] theorem configureStep_wireTx (c : Params) (s : State) :
    (configureStep c s).wireTx = s.wireTx := by
  unfold configureStep; split <;> rfl

@[simp] theorem configureStep_rxq (c : Params) (s : State) :
    (configureStep c s).rxq = s.rxq := by
  unfold configureStep; split <;> rfl

@[simp] theorem configureStep_script (c : Params) (s : State) :
    (configureStep c s).script = s.script := by
  unfold configureStep; split <;> rfl

@[simp] theorem configureStep_draws (c : Params) (s : State) :
    (configureStep c s).draws = s.draws := by
  unfold configureStep; split <;> rfl

/-! ### `requestStep` -/

@[simp] theorem requestStep_isOpen (i : Nat) (op : Byte) (val : Word) (s : State) :
    (requestStep i op val s).isOpen = s.isOpen := by
  unfold requestStep; split <;> rfl

@[simp] theorem requestStep_phase (i : Nat) (op : Byte) (val : Word) (s : State) :
    (requestStep i op val s).phase = s.phase := by
  unfold requestStep; split <;> rfl

@[simp] theorem requestStep_owner (i : Nat) (op : Byte) (val : Word) (s : State) :
    (requestStep i op val s).owner = s.owner := by
  unfold requestStep; split <;> rfl

@[simp] theorem requestStep_reqOp (i : Nat) (op : Byte) (val : Word) (s : State) :
    (requestStep i op val s).reqOp = s.reqOp := by
  unfold requestStep; split <;> rfl

@[simp] theorem requestStep_reqVal (i : Nat) (op : Byte) (val : Word) (s : State) :
    (requestStep i op val s).reqVal = s.reqVal := by
  unfold requestStep; split <;> rfl

@[simp] theorem requestStep_txBuf (i : Nat) (op : Byte) (val : Word) (s : State) :
    (requestStep i op val s).txBuf = s.txBuf := by
  unfold requestStep; split <;> rfl

@[simp] theorem requestStep_txCnt (i : Nat) (op : Byte) (val : Word) (s : State) :
    (requestStep i op val s).txCnt = s.txCnt := by
  unfold requestStep; split <;> rfl

@[simp] theorem requestStep_rxBuf (i : Nat) (op : Byte) (val : Word) (s : State) :
    (requestStep i op val s).rxBuf = s.rxBuf := by
  unfold requestStep; split <;> rfl

@[simp] theorem requestStep_rxCnt (i : Nat) (op : Byte) (val : Word) (s : State) :
    (requestStep i op val s).rxCnt = s.rxCnt := by
  unfold requestStep; split <;> rfl

@[simp] theorem requestStep_deadline (i : Nat) (op : Byte) (val : Word) (s : State) :
    (requestStep i op val s).deadline = s.deadline := by
  unfold requestStep; split <;> rfl

@[simp] theorem requestStep_now (i : Nat) (op : Byte) (val : Word) (s : State) :
    (requestStep i op val s).now = s.now := by
  unfold requestStep; split <;> rfl

@[simp] theorem requestStep_wireTx (i : Nat) (op : Byte) (val : Word) (s : State) :
    (requestStep i op val s).wireTx = s.wireTx := by
  unfold requestStep; split <;> rfl

@[simp] theorem requestStep_rxq (i : Nat) (op : Byte) (val : Word) (s : State) :
    (requestStep i op val s).rxq = s.rxq := by
  unfold requestStep; split <;> rfl

@[simp] theorem requestStep_cfg (i : Nat) (op : Byte) (val : Word) (s : State) :
    (requestStep i op val s).cfg = s.cfg := by
  unfold requestStep; split <;> rfl

@[simp] theorem requestStep_script (i : Nat) (op : Byte) (val : Word) (s : State) :
    (requestStep i op val s).script = s.script := by
  unfold requestStep; split <;> rfl

@[simp] theorem requestStep_draws (i : Nat) (op : Byte) (val : Word) (s : State) :
    (requestStep i op val s).draws = s.draws := by
  unfold requestStep; split <;> rfl

/-! ### `responseStep` -/

@[simp] theorem responseStep_isOpen (i : Nat) (s : State) :
    (responseStep i s).isOpen = s.isOpen := by
  unfold responseStep; split
  · split <;> rfl
  · rfl

@[simp] theorem responseStep_phase (i : Nat) (s : State) :
    (responseStep i s).phase = s.phase := by
  unfold responseStep; split
  · split <;> rfl
  · rfl

@[simp] theorem responseStep_owner (i : Nat) (s : State) :
    (responseStep i s).owner = s.owner := by
  unfold responseStep; split
  · split <;> rfl
  · rfl

@[simp] theorem responseStep_reqOp (i : Nat) (s : State) :
    (responseStep i s).reqOp = s.reqOp := by
  unfold responseStep; split
  · split <;> rfl
  · rfl

@[simp] theorem responseStep_reqVal (i : Nat) (s : State) :
    (responseStep i s).reqVal = s.reqVal := by
  unfold responseStep; split
  · split <;> rfl
  · rfl

@[simp] theorem responseStep_txBuf (i : Nat) (s : State) :
    (responseStep i s).txBuf = s.txBuf := by
  unfold responseStep; split
  · split <;> rfl
  · rfl

@[simp] theorem responseStep_txCnt (i : Nat) (s : State) :
    (responseStep i s).txCnt = s.txCnt := by
  unfold responseStep; split
  · split <;> rfl
  · rfl

@[simp] theorem responseStep_rxBuf (i : Nat) (s : State) :
    (responseStep i s).rxBuf = s.rxBuf := by
  unfold responseStep; split
  · split <;> rfl
  · rfl

@[simp] theorem responseStep_rxCnt (i : Nat) (s : State) :
    (responseStep i s).rxCnt = s.rxCnt := by
  unfold responseStep; split
  · split <;> rfl
  · rfl

@[simp] theorem responseStep_deadline (i : Nat) (s : State) :
    (responseStep i s).deadline = s.deadline := by
  unfold responseStep; split
  · split <;> rfl
  · rfl

@[simp] theorem responseStep_now (i : Nat) (s : State) :
    (responseStep i s).now = s.now := by
  unfold responseStep; split
  · split <;> rfl
  · rfl

@[simp] theorem responseStep_wireTx (i : Nat) (s : State) :
    (responseStep i s).wireTx = s.wireTx := by
  unfold responseStep; split
  · split <;> rfl
  · rfl

@[simp] theorem responseStep_rxq (i : Nat) (s : State) :
    (responseStep i s).rxq = s.rxq := by
  unfold responseStep; split
  · split <;> rfl
  · rfl

@[simp] theorem responseStep_cfg (i : Nat) (s : State) :
    (responseStep i s).cfg = s.cfg := by
  unfold responseStep; split
  · split <;> rfl
  · rfl

@[simp] theorem responseStep_script (i : Nat) (s : State) :
    (responseStep i s).script = s.script := by
  unfold responseStep; split
  · split <;> rfl
  · rfl

@[simp] theorem responseStep_draws (i : Nat) (s : State) :
    (responseStep i s).draws = s.draws := by
  unfold responseStep; split
  · split <;> rfl
  · rfl

/-! ### `takeEvent` -/

@[simp] theorem takeEvent_isOpen (s : State) :
    (takeEvent s).isOpen = s.isOpen := by
  unfold takeEvent; split <;> rfl

@[simp] theorem takeEvent_phase (s : State) :
    (takeEvent s).phase = s.phase := by
  unfold takeEvent; split <;> rfl

@[simp] theorem takeEvent_owner (s : State) :
    (takeEvent s).owner = s.owner := by
  unfold takeEvent; split <;> rfl

@[simp] theorem takeEvent_reqOp (s : State) :
    (takeEvent s).reqOp = s.reqOp := by
  unfold takeEvent; split <;> rfl

@[simp] theorem takeEvent_reqVal (s : State) :
    (takeEvent s).reqVal = s.reqVal := by
  unfold takeEvent; split <;> rfl

@[simp] theorem takeEvent_txBuf (s : State) :
    (takeEvent s).txBuf = s.txBuf := by
  unfold takeEvent; split <;> rfl

@[simp] theorem takeEvent_txCnt (s : State) :
    (takeEvent s).txCnt = s.txCnt := by
  unfold takeEvent; split <;> rfl

@[simp] theorem takeEvent_rxBuf (s : State) :
    (takeEvent s).rxBuf = s.rxBuf := by
  unfold takeEvent; split <;> rfl

@[simp] theorem takeEvent_rxCnt (s : State) :
    (takeEvent s).rxCnt = s.rxCnt := by
  unfold takeEvent; split <;> rfl

@[simp] theorem takeEvent_deadline (s : State) :
    (takeEvent s).deadline = s.deadline := by
  unfold takeEvent; split <;> rfl

@[simp] theorem takeEvent_callers (s : State) :
    (takeEvent s).callers = s.callers := by
  unfold takeEvent; split <;> rfl

@[simp] theorem takeEvent_now (s : State) :
    (takeEvent s).now = s.now := by
  unfold takeEvent; split <;> rfl

@[simp] theorem takeEvent_wireTx (s : State) :
    (takeEvent s).wireTx = s.wireTx := by
  unfold takeEvent; split <;> rfl

@[simp] theorem takeEvent_rxq (s : State) :
    (takeEvent s).rxq = s.rxq := by
  unfold takeEvent; split <;> rfl

@[simp] theorem takeEvent_cfg (s : State) :
    (takeEvent s).cfg = s.cfg := by
  unfold takeEvent; split <;> rfl

end Sys2Proof.Machine
end

