-- ==== Sys2Proof/Laws/Ops.lean ====
section
/-!
SUPPORT. For each shared operation of Machine/Ops.lean and Machine/Operands.lean, once, what it can do.
-/

namespace Sys2Proof.Machine

/-! ### What follows an outcome -/

@[simp] theorem andThen_next (t : State) (f : State → Out) : andThen (.next t) f = f t := rfl
@[simp] theorem andThen_fault (r : Fault) (f : State → Out) : andThen (.fault r) f = .fault r := rfl
@[simp] theorem andThen_refused (r : Refusal) (f : State → Out) : andThen (.refused r) f = .refused r := rfl

theorem andThen_eq_next {o : Out} {f : State → Out} {t : State} :
    andThen o f = .next t ↔ ∃ u, o = .next u ∧ f u = .next t := by
  cases o <;> simp

theorem andThen_assoc (o : Out) (f g : State → Out) :
    andThen (andThen o f) g = andThen o (fun u => andThen (f u) g) := by
  cases o <;> rfl

/-! ### Caller ports -/

@[simp] theorem callers_length_setPend (i : Nat) (p : Pend) (s : State) :
    (setPend i p s).callers.length = s.callers.length := by simp

@[simp] theorem callers_length_setRsp (i : Nat) (r : Rsp) (s : State) :
    (setRsp i r s).callers.length = s.callers.length := by simp

@[simp] theorem rspOf_setPend (i j : Nat) (p : Pend) (s : State) : rspOf j (setPend i p s) = rspOf j s := by
  simp only [rspOf, setPend_callers, List.getElem?_modify]
  cases s.callers[j]? with
  | none => simp
  | some c => simp; split <;> rfl

@[simp] theorem pendOf_setRsp (i j : Nat) (r : Rsp) (s : State) : pendOf j (setRsp i r s) = pendOf j s := by
  simp only [pendOf, setRsp_callers, List.getElem?_modify]
  cases s.callers[j]? with
  | none => simp
  | some c => simp; split <;> rfl

theorem pendOf_setPend (i j : Nat) (p : Pend) (s : State) :
    pendOf j (setPend i p s) = if i = j then (pendOf j s).map (fun _ => p) else pendOf j s := by
  simp only [pendOf, setPend_callers, List.getElem?_modify]
  cases s.callers[j]? with
  | none => simp
  | some c => by_cases h : i = j <;> simp [h]

theorem rspOf_setRsp (i j : Nat) (r : Rsp) (s : State) :
    rspOf j (setRsp i r s) = if i = j then (rspOf j s).map (fun _ => r) else rspOf j s := by
  simp only [rspOf, setRsp_callers, List.getElem?_modify]
  cases s.callers[j]? with
  | none => simp
  | some c => by_cases h : i = j <;> simp [h]

theorem pendOf_eq_none_iff (i : Nat) (s : State) : pendOf i s = none ↔ s.callers.length ≤ i := by
  simp [pendOf]

theorem rspOf_eq_none_iff (i : Nat) (s : State) : rspOf i s = none ↔ s.callers.length ≤ i := by
  simp [rspOf]

/-- A caller that waits has a port. -/
theorem lt_of_waits {i : Nat} {s : State} (h : waits i s = true) : i < s.callers.length := by
  unfold waits at h
  split at h
  · rename_i p hp
    by_contra hn
    rw [(pendOf_eq_none_iff i s).2 (by omega)] at hp
    cases hp
  · cases h

theorem waits_setPend (i j : Nat) (p : Pend) (s : State) :
    waits j (setPend i p s) = if i = j then (pendOf j s).isSome && p.valid else waits j s := by
  unfold waits
  rw [pendOf_setPend]
  by_cases h : i = j
  · simp only [h, if_true]; cases pendOf j s <;> simp
  · simp [h]

@[simp] theorem rspWaits_setPend (i j : Nat) (p : Pend) (s : State) :
    rspWaits j (setPend i p s) = rspWaits j s := by
  simp [rspWaits]

@[simp] theorem waits_setRsp (i j : Nat) (r : Rsp) (s : State) : waits j (setRsp i r s) = waits j s := by
  simp [waits]

theorem rspWaits_setRsp (i j : Nat) (r : Rsp) (s : State) :
    rspWaits j (setRsp i r s) = if i = j then (rspOf j s).isSome && r.valid else rspWaits j s := by
  unfold rspWaits
  rw [rspOf_setRsp]
  by_cases h : i = j
  · simp only [h, if_true]; cases rspOf j s <;> simp
  · simp [h]

/-- What a caller's latches show depends on the caller ports only. -/
theorem waits_of_callers {s t : State} (h : t.callers = s.callers) (i : Nat) : waits i t = waits i s := by
  simp [waits, pendOf, h]

theorem rspWaits_of_callers {s t : State} (h : t.callers = s.callers) (i : Nat) : rspWaits i t = rspWaits i s := by
  simp [rspWaits, rspOf, h]

/-- What the arbiter picks waits (42_transaction_engine R168). -/
theorem waits_of_arbiter {d i : Nat} {s : State} (h : arbiter d s = some i) : waits i s = true := by
  unfold arbiter at h
  split at h
  · cases h; assumption
  · simpa using List.find?_some h

/-! ### Completion -/

/-- Everything `complete` can do: deliver to the owner's port and release the lock, or fault where there is none. -/
theorem complete_eq (r : Result) (s : State) :
    complete r s =
      if s.owner < s.callers.length then
        .next { setRsp s.owner { valid := true, status := r.status, value := r.value, info := r.info } s with
          phase := .idle }
      else .fault .noSuchCaller := rfl

theorem complete_of_lt (r : Result) {s : State} (h : s.owner < s.callers.length) :
    complete r s =
      .next { setRsp s.owner { valid := true, status := r.status, value := r.value, info := r.info } s with
        phase := .idle } := if_pos h

theorem complete_eq_next {r : Result} {s t : State} (h : complete r s = .next t) :
    s.owner < s.callers.length ∧
      t = { setRsp s.owner { valid := true, status := r.status, value := r.value, info := r.info } s with
        phase := .idle } := by
  rw [complete_eq] at h
  split at h
  · next hl => exact ⟨hl, by cases h; rfl⟩
  · cases h

theorem fail_eq (st : Status) (info : Word) (s : State) :
    fail st info s = complete { status := st, value := 0x0000#16, info := info } s := rfl

theorem succeed_eq (v : Word) (s : State) :
    succeed v s = complete { status := .ok, value := v, info := infoNone } s := rfl

/-- Everything `beginSend` can do: start the transaction, or wait. -/
theorem beginSend_eq_next {op : Byte} {v : Word} {s t : State} (h : beginSend op v s = .next t) :
    (s.isOpen = true ∧ s.phase = .idle ∧ t = startTransaction op v s) ∨
      (¬(s.isOpen = true ∧ s.phase = .idle) ∧ t = s) := by
  unfold beginSend at h
  split at h
  · next hc => simp at hc; cases h; exact .inl ⟨hc.1, hc.2, rfl⟩
  · next hc => simp at hc; cases h; exact .inr ⟨fun hh => hc hh.1 hh.2, rfl⟩

theorem beginSend_of_free (op : Byte) (v : Word) {s : State} (ho : s.isOpen = true) (hp : s.phase = .idle) :
    beginSend op v s = .next (startTransaction op v s) := by
  simp [beginSend, ho, hp]

/-- Everything `deviceError` can do: complete with the device's error, or wait for the decode phase. -/
theorem deviceError_eq (c : Category) (code : Byte) (s : State) :
    deviceError c code s =
      if s.phase = .decode then complete { status := .device, value := 0x0000#16, info := infoDevice c code } s
      else .next s := by
  simp [deviceError, fail_eq]

/-! ### The draws of the channel -/

@[simp] theorem offered_length (s : State) : (offered s).length = 6 - s.txCnt := by
  simp [offered]

theorem writeCount_le (n : Nat) (s : State) : writeCount n s ≤ 6 - s.txCnt := by
  simp [writeCount]

theorem readCount_le_missing (n : Nat) (s : State) : readCount n s ≤ 6 - s.rxCnt := by
  simp [readCount, missing, frameLen]

theorem readCount_le_rxq (n : Nat) (s : State) : readCount n s ≤ s.rxq.length := by
  simp [readCount]

theorem readDuration_le (d : Nat) (s : State) : readDuration d s ≤ s.cfg.tChRead := by
  simp [readDuration]

theorem writeDuration_le {b : Nat} {s : State} (h : s.cfg.tChWrite = some b) (d : Nat) : writeDuration d s ≤ b := by
  simp [writeDuration, h]

/-- How far `NOW` may advance by itself, said once by phase (20_memory R76). -/
theorem admittedTime_le (k : Nat) (s : State) :
    admittedTime k s ≤ k ∧ (s.phase = .idle → admittedTime k s = k) ∧
      (s.phase ≠ .idle → ∀ b ∈ s.cfg.tChWrite,
        admittedTime k s ≤ max s.cfg.tChRead b ∧ (s.deadline ≤ s.now → admittedTime k s = 0)) := by
  unfold admittedTime
  cases hp : s.phase <;> cases hw : s.cfg.tChWrite <;> by_cases he : s.deadline ≤ s.now <;>
    simp [expired, writeDuration, readDuration, hw, he]

end Sys2Proof.Machine
end

