-- ==== Sys2Proof/Laws/Steps.lean ====
section
/-!
SUPPORT. What each step of the core and each move can do, said once (42_transaction_engine R172 to R182), and the two
lemmas by which a property kept by every move is kept by an edge of the clock and by a step.
-/

namespace Sys2Proof.Machine

/-! ### The rows of the opcode table -/

/-- A request row, whatever its opcode, begins a transaction. -/
theorem exec_of_decodeRequest {op : Byte} {v : Word} {i : Instr} (h : decodeRequest op v = some i) (s : State) :
    exec i s = beginSend op v s := by
  obtain ⟨rfl, rfl⟩ | ⟨rfl, rfl⟩ | ⟨rfl, rfl⟩ := (decodeRequest_eq_some_iff op v i).1 h <;> rfl

/-- A NAK, whatever its code, is the device error of the code's category. -/
theorem execNak_eq (code reserved : Byte) (s : State) :
    execNak code reserved s = deviceError (category code) code s := by
  unfold execNak category
  split_ifs <;> simp_all [execErrInvalidAddress, execErrInvalidBcc, execErrInvalidCommand, execErrInvalidParameter,
    execErrOutOfRange, execErrUnknown]

/-- A response that decodes is an ACK or a NAK. -/
theorem decodeResponse_eq_ok {bs : List Byte} {i : Instr} (h : decodeResponse bs = .ok i) :
    (∃ b2 b3, bs = (frameWith typeAck b2 b3).toList ∧ i = .ack (join16 b2 b3)) ∨
      (∃ b2 b3, bs = (frameWith typeNak b2 b3).toList ∧ i = .nak b2 b3) := by
  unfold decodeResponse at h
  split at h
  · cases h
  · rename_i b1 b2 b3 hs
    rw [structuralCheck_eq_ok_iff] at hs
    split at h
    · next hc => rw [beq_iff_eq] at hc; subst hc; cases h; exact .inl ⟨_, _, hs, rfl⟩
    · split at h
      · next hc => rw [beq_iff_eq] at hc; subst hc; cases h; exact .inr ⟨_, _, hs, rfl⟩
      · cases h

/-! ### The core's steps -/

theorem mayGrant_iff (i : Nat) (s : State) :
    mayGrant i s = true ↔ s.isOpen = true ∧ s.phase = .idle ∧ waits i s = true := by
  simp [mayGrant, and_assoc]

theorem waits_iff (i : Nat) (s : State) : waits i s = true ↔ ∃ p, pendOf i s = some p ∧ p.valid = true := by
  unfold waits
  split <;> simp_all

theorem rspWaits_iff (i : Nat) (s : State) : rspWaits i s = true ↔ ∃ r, rspOf i s = some r ∧ r.valid = true := by
  unfold rspWaits
  split <;> simp_all

/-- Everything a grant step can do. -/
theorem grantStep_cases (i : Nat) (s : State) :
    (mayGrant i s = false ∧ grantStep i s = .next s) ∨
      ∃ p, mayGrant i s = true ∧ pendOf i s = some p ∧ p.valid = true ∧
        ((legalOpcode p.op = true ∧ grantStep i s = .next (startTransaction p.op p.val (latchRequest i p s))) ∨
          (legalOpcode p.op = false ∧
            grantStep i s = complete { status := .illegalOpcode, value := 0x0000#16, info := infoIllegalOpcode p.op }
              (latchRequest i p s))) := by
  by_cases hg : mayGrant i s = true
  · right
    obtain ⟨ho, hp, hw⟩ := (mayGrant_iff i s).1 hg
    obtain ⟨p, hpe, hv⟩ := (waits_iff i s).1 hw
    refine ⟨p, hg, hpe, hv, ?_⟩
    unfold grantStep
    simp only [hg, if_true, hpe]
    cases hd : decodeRequest p.op p.val with
    | none =>
      exact .inr ⟨(decodeRequest_eq_none_iff _ _).1 hd, rfl⟩
    | some instr =>
      refine .inl ⟨?_, ?_⟩
      · by_contra hl
        rw [(decodeRequest_eq_none_iff p.op p.val).2 (by simpa using hl)] at hd
        cases hd
      · simp only [exec_of_decodeRequest hd]
        exact beginSend_of_free _ _ (by simpa using ho) (by simpa using hp)
  · left
    have hg : mayGrant i s = false := by simpa using hg
    exact ⟨hg, by simp [grantStep, hg]⟩

/-- Everything a write step can do. -/
theorem writeStep_cases (n : Nat) (err : Xfer) (dur : Nat) (s : State) :
    (s.phase ≠ .write ∧ writeStep n err dur s = .next s) ∨
      (s.phase = .write ∧ s.deadline ≤ s.now ∧
        writeStep n err dur s =
          complete { status := .timeout, value := 0x0000#16, info := infoTimeoutWrite s.txCnt } s) ∨
      (s.phase = .write ∧ s.now < s.deadline ∧ err = .fail ∧
        writeStep n err dur s =
          complete { status := .writeFailed, value := 0x0000#16, info := infoNone }
            (chWrite (writeCount n s) (writeDuration dur s) s)) ∨
      (s.phase = .write ∧ s.now < s.deadline ∧ err = .ok ∧
        writeStep n err dur s =
          .next (countSent (writeCount n s) (chWrite (writeCount n s) (writeDuration dur s) s))) := by
  by_cases hp : s.phase = .write
  · by_cases hd : s.deadline ≤ s.now
    · exact .inr (.inl ⟨hp, hd, by simp [writeStep, hp, expired, hd, fail_eq]⟩)
    · have hd' : s.now < s.deadline := by omega
      cases err
      · exact .inr (.inr (.inr ⟨hp, hd', rfl, by simp [writeStep, hp, expired, hd]⟩))
      · exact .inr (.inr (.inl ⟨hp, hd', rfl, by simp [writeStep, hp, expired, hd, fail_eq]⟩))
  · exact .inl ⟨hp, by simp [writeStep, hp]⟩

/-- Everything a read step can do. -/
theorem readStep_cases (n : Nat) (err : Xfer) (dur : Nat) (s : State) :
    (s.phase ≠ .read ∧ readStep n err dur s = .next s) ∨
      (s.phase = .read ∧ s.deadline ≤ s.now ∧
        readStep n err dur s =
          complete { status := .timeout, value := 0x0000#16, info := infoTimeoutRead s.rxCnt } s) ∨
      (s.phase = .read ∧ s.now < s.deadline ∧ err = .fail ∧
        readStep n err dur s =
          complete { status := .readFailed, value := 0x0000#16, info := infoNone }
            (chRead (readCount n s) (readDuration dur s) s)) ∨
      (s.phase = .read ∧ s.now < s.deadline ∧ err = .ok ∧
        readStep n err dur s =
          .next (storeReply (s.rxq.take (readCount n s)) (chRead (readCount n s) (readDuration dur s) s))) := by
  by_cases hp : s.phase = .read
  · by_cases hd : s.deadline ≤ s.now
    · exact .inr (.inl ⟨hp, hd, by simp [readStep, hp, expired, hd, fail_eq]⟩)
    · have hd' : s.now < s.deadline := by omega
      cases err
      · exact .inr (.inr (.inr ⟨hp, hd', rfl, by simp [readStep, hp, expired, hd]⟩))
      · exact .inr (.inr (.inl ⟨hp, hd', rfl, by simp [readStep, hp, expired, hd, fail_eq]⟩))
  · exact .inl ⟨hp, by simp [readStep, hp]⟩

/-- Everything a decode step can do: nothing outside the decode phase, else one completion, which depends on the reply
buffer only. -/
theorem decodeStep_cases (s : State) :
    (s.phase ≠ .decode ∧ decodeStep s = .next s) ∨
      (s.phase = .decode ∧ ∃ r : Result, decodeStep s = complete r s ∧
        ∀ t : State, t.phase = .decode → t.rxBuf = s.rxBuf → decodeStep t = complete r t) := by
  by_cases hp : s.phase = .decode
  · refine .inr ⟨hp, ?_⟩
    cases hd : decodeResponse s.rxBuf.toList with
    | error e =>
      refine ⟨{ status := rejectStatus e, value := 0x0000#16, info := rejectInfo e }, ?_, ?_⟩
      · simp [decodeStep, hp, hd, fail_eq]
      · intro t ht hb; simp [decodeStep, ht, hb, hd, fail_eq]
    | ok i =>
      obtain ⟨b2, b3, -, rfl⟩ | ⟨b2, b3, -, rfl⟩ := decodeResponse_eq_ok hd
      · refine ⟨{ status := .ok, value := join16 b2 b3, info := infoNone }, ?_, ?_⟩
        · simp [decodeStep, hp, hd, exec, execAck, succeed_eq]
        · intro t ht hb; simp [decodeStep, ht, hb, hd, exec, execAck, succeed_eq]
      · refine ⟨{ status := .device, value := 0x0000#16, info := infoDevice (category b2) b2 }, ?_, ?_⟩
        · simp [decodeStep, hp, hd, exec, execNak_eq, deviceError_eq]
        · intro t ht hb; simp [decodeStep, ht, hb, hd, exec, execNak_eq, deviceError_eq]
  · exact .inl ⟨hp, by simp [decodeStep, hp]⟩

/-! ### The callers' steps -/

theorem requestStep_cases (i : Nat) (op : Byte) (val : Word) (s : State) :
    (mayRequest i s = false ∧ requestStep i op val s = s) ∨
      (mayRequest i s = true ∧ requestStep i op val s = setPend i { valid := true, op := op, val := val } s) := by
  cases h : mayRequest i s <;> simp [requestStep, h]

theorem responseStep_cases (i : Nat) (s : State) :
    (rspWaits i s = false ∧ responseStep i s = s) ∨
      ∃ r, rspOf i s = some r ∧ r.valid = true ∧ responseStep i s = setRsp i { r with valid := false } s := by
  unfold responseStep rspWaits
  cases h : rspOf i s with
  | none => simp
  | some r => cases hr : r.valid <;> simp [hr]

theorem mayRequest_iff (i : Nat) (s : State) :
    mayRequest i s = true ↔ i < s.callers.length ∧ waits i s = false ∧ inFlight i s = false ∧ rspWaits i s = false := by
  simp [mayRequest, and_assoc]

/-! ### From moves to steps -/

/-- A property every move keeps is kept by a list of moves, so by an edge of the clock. -/
theorem runMoves_keeps {P : State → Prop} (hm : ∀ m s t, P s → runMove m s = .next t → P t) :
    ∀ ms s t, P s → runMoves ms s = .next t → P t
  | [], s, t, hs, h => by cases h; exact hs
  | m :: ms, s, t, hs, h => by
    obtain ⟨u, hu, h⟩ := andThen_eq_next.1 h
    exact runMoves_keeps hm ms u t (hm m s u hs hu) h

/-- A property that every move, taking an event and the end of an edge keep is kept by every step. -/
theorem step_keeps {P : State → Prop} (ht : ∀ s, P s → P (takeEvent s))
    (hm : ∀ m s t, P s → runMove m s = .next t → P t) (he : ∀ p s, P s → P (endEdge p s))
    (s t : State) (hs : P s) (h : step s = .next t) : P t := by
  unfold step runEvent at h
  split at h
  · exact hm _ _ _ (ht s hs) h
  · obtain ⟨u, hu, h⟩ := andThen_eq_next.1 h
    cases h
    exact he _ u (runMoves_keeps hm _ _ _ (ht s hs) hu)

end Sys2Proof.Machine
end

