-- ==== Sys2Proof/Laws/Edges.lean ====
section
/-!
SUPPORT. A clock edge taken apart (42_transaction_engine R186): the core's step, then what the ports ask for, which touches
nothing but `OPEN` and the caller ports, then the device's bytes and one tick.
-/

namespace Sys2Proof.Machine

/-- The moves the ports ask for, as total functions; the core's own moves do nothing here. -/
def portStep (m : Move) (s : State) : State :=
  match m with
  | .openChannel => openStep s
  | .request i op val => requestStep i op val s
  | .response i => responseStep i s
  | _ => s

/-- A move of the callers or of the boot environment's `open`. -/
def isPortMove : Move → Bool
  | .openChannel => true
  | .request _ _ _ => true
  | .response _ => true
  | _ => false

/-- The state after a list of port moves. -/
def afterMoves (ms : List Move) (u : State) : State := ms.foldl (fun t m => portStep m t) u

theorem runMove_of_isPortMove {m : Move} (h : isPortMove m = true) (s : State) : runMove m s = .next (portStep m s) := by
  cases m <;> first | rfl | cases h

theorem runMoves_of_isPortMove (ms : List Move) (h : ∀ m ∈ ms, isPortMove m = true) (u : State) :
    runMoves ms u = .next (afterMoves ms u) := by
  induction ms generalizing u with
  | nil => rfl
  | cons m ms ih =>
    rw [runMoves, runMove_of_isPortMove (h m (by simp))]
    exact ih (fun m' hm => h m' (by simp [hm])) _

theorem runMoves_append (ms ns : List Move) (s : State) :
    runMoves (ms ++ ns) s = andThen (runMoves ms s) (runMoves ns) := by
  induction ms generalizing s with
  | nil => rfl
  | cons m ms ih =>
    simp only [List.cons_append, runMoves]
    cases runMove m s with
    | next u => exact ih u
    | fault r => rfl
    | refused r => rfl

/-- What the ports ask for, by shape. -/
theorem shape_of_mem_portMoves {p : PortsIn} {s : State} {m : Move} (h : m ∈ portMoves p s) :
    m = .openChannel ∨ (∃ i, m = .response i) ∨ ∃ i op val, m = .request i op val := by
  simp only [portMoves, List.mem_append, List.mem_flatMap] at h
  rcases h with (h | ⟨i, -, h⟩) | ⟨i, -, h⟩
  · unfold openMove at h
    split at h
    · exact .inl (List.mem_singleton.1 h)
    · cases h
  · unfold responseMove at h
    split at h
    · exact .inr (.inl ⟨i, List.mem_singleton.1 h⟩)
    · cases h
  · unfold requestMove at h
    split at h
    · split at h
      · exact .inr (.inr ⟨i, _, _, List.mem_singleton.1 h⟩)
      · cases h
    · cases h

/-- What the ports ask for are port moves. -/
theorem isPortMove_of_mem_portMoves {p : PortsIn} {s : State} {m : Move} (h : m ∈ portMoves p s) :
    isPortMove m = true := by
  rcases shape_of_mem_portMoves h with rfl | ⟨i, rfl⟩ | ⟨i, op, val, rfl⟩ <;> rfl

/-- An edge with `rst = 0`: the core's step, and if it answers, what the ports ask for and the end of the edge. -/
theorem clockEdge_of_not_rst {p : PortsIn} (h : p.rst = false) (s : State) :
    clockEdge p s =
      andThen (runMoves (coreMove p s) s) (fun u => .next (endEdge p (afterMoves (portMoves p s) u))) := by
  simp only [clockEdge, edgeMoves, h, Bool.false_eq_true, if_false, runMoves_append]
  cases runMoves (coreMove p s) s with
  | next u =>
    simp only [andThen_next, runMoves_of_isPortMove _ (fun m => isPortMove_of_mem_portMoves)]
  | fault r => rfl
  | refused r => rfl

/-- An edge with `rst = 1`: the reset, then the end of the edge. -/
theorem clockEdge_of_rst {p : PortsIn} (h : p.rst = true) (s : State) :
    clockEdge p s = .next (endEdge p (resetCore s)) := by
  simp [clockEdge, edgeMoves, h, runMoves, runMove]

/-! ### What the ports leave alone -/

/-- A field that no port move writes is the same after any number of them. -/
theorem afterMoves_field {α : Type} (f : State → α) (hf : ∀ m s, f (portStep m s) = f s) (ms : List Move) (u : State) :
    f (afterMoves ms u) = f u := by
  induction ms generalizing u with
  | nil => rfl
  | cons m ms ih => exact (ih _).trans (hf m u)

theorem portStep_phase (m : Move) (s : State) : (portStep m s).phase = s.phase := by
  cases m <;> first | exact openStep_phase s | exact requestStep_phase _ _ _ s | exact responseStep_phase _ s | rfl
theorem portStep_owner (m : Move) (s : State) : (portStep m s).owner = s.owner := by
  cases m <;> first | exact openStep_owner s | exact requestStep_owner _ _ _ s | exact responseStep_owner _ s | rfl
theorem portStep_reqOp (m : Move) (s : State) : (portStep m s).reqOp = s.reqOp := by
  cases m <;> first | exact openStep_reqOp s | exact requestStep_reqOp _ _ _ s | exact responseStep_reqOp _ s | rfl
theorem portStep_reqVal (m : Move) (s : State) : (portStep m s).reqVal = s.reqVal := by
  cases m <;> first | exact openStep_reqVal s | exact requestStep_reqVal _ _ _ s | exact responseStep_reqVal _ s | rfl
theorem portStep_txBuf (m : Move) (s : State) : (portStep m s).txBuf = s.txBuf := by
  cases m <;> first | exact openStep_txBuf s | exact requestStep_txBuf _ _ _ s | exact responseStep_txBuf _ s | rfl
theorem portStep_txCnt (m : Move) (s : State) : (portStep m s).txCnt = s.txCnt := by
  cases m <;> first | exact openStep_txCnt s | exact requestStep_txCnt _ _ _ s | exact responseStep_txCnt _ s | rfl
theorem portStep_rxBuf (m : Move) (s : State) : (portStep m s).rxBuf = s.rxBuf := by
  cases m <;> first | exact openStep_rxBuf s | exact requestStep_rxBuf _ _ _ s | exact responseStep_rxBuf _ s | rfl
theorem portStep_rxCnt (m : Move) (s : State) : (portStep m s).rxCnt = s.rxCnt := by
  cases m <;> first | exact openStep_rxCnt s | exact requestStep_rxCnt _ _ _ s | exact responseStep_rxCnt _ s | rfl
theorem portStep_deadline (m : Move) (s : State) : (portStep m s).deadline = s.deadline := by
  cases m <;> first | exact openStep_deadline s | exact requestStep_deadline _ _ _ s | exact responseStep_deadline _ s | rfl
theorem portStep_wireTx (m : Move) (s : State) : (portStep m s).wireTx = s.wireTx := by
  cases m <;> first | exact openStep_wireTx s | exact requestStep_wireTx _ _ _ s | exact responseStep_wireTx _ s | rfl
theorem portStep_now (m : Move) (s : State) : (portStep m s).now = s.now := by
  cases m <;> first | exact openStep_now s | exact requestStep_now _ _ _ s | exact responseStep_now _ s | rfl
theorem portStep_rxq (m : Move) (s : State) : (portStep m s).rxq = s.rxq := by
  cases m <;> first | exact openStep_rxq s | exact requestStep_rxq _ _ _ s | exact responseStep_rxq _ s | rfl
theorem portStep_cfg (m : Move) (s : State) : (portStep m s).cfg = s.cfg := by
  cases m <;> first | exact openStep_cfg s | exact requestStep_cfg _ _ _ s | exact responseStep_cfg _ s | rfl
theorem portStep_script (m : Move) (s : State) : (portStep m s).script = s.script := by
  cases m <;> first | exact openStep_script s | exact requestStep_script _ _ _ s | exact responseStep_script _ s | rfl
theorem portStep_draws (m : Move) (s : State) : (portStep m s).draws = s.draws := by
  cases m <;> first | exact openStep_draws s | exact requestStep_draws _ _ _ s | exact responseStep_draws _ s | rfl

@[simp] theorem afterMoves_phase (ms : List Move) (u : State) : (afterMoves ms u).phase = u.phase :=
  afterMoves_field _ portStep_phase ms u
@[simp] theorem afterMoves_owner (ms : List Move) (u : State) : (afterMoves ms u).owner = u.owner :=
  afterMoves_field _ portStep_owner ms u
@[simp] theorem afterMoves_reqOp (ms : List Move) (u : State) : (afterMoves ms u).reqOp = u.reqOp :=
  afterMoves_field _ portStep_reqOp ms u
@[simp] theorem afterMoves_reqVal (ms : List Move) (u : State) : (afterMoves ms u).reqVal = u.reqVal :=
  afterMoves_field _ portStep_reqVal ms u
@[simp] theorem afterMoves_txBuf (ms : List Move) (u : State) : (afterMoves ms u).txBuf = u.txBuf :=
  afterMoves_field _ portStep_txBuf ms u
@[simp] theorem afterMoves_txCnt (ms : List Move) (u : State) : (afterMoves ms u).txCnt = u.txCnt :=
  afterMoves_field _ portStep_txCnt ms u
@[simp] theorem afterMoves_rxBuf (ms : List Move) (u : State) : (afterMoves ms u).rxBuf = u.rxBuf :=
  afterMoves_field _ portStep_rxBuf ms u
@[simp] theorem afterMoves_rxCnt (ms : List Move) (u : State) : (afterMoves ms u).rxCnt = u.rxCnt :=
  afterMoves_field _ portStep_rxCnt ms u
@[simp] theorem afterMoves_deadline (ms : List Move) (u : State) : (afterMoves ms u).deadline = u.deadline :=
  afterMoves_field _ portStep_deadline ms u
@[simp] theorem afterMoves_wireTx (ms : List Move) (u : State) : (afterMoves ms u).wireTx = u.wireTx :=
  afterMoves_field _ portStep_wireTx ms u
@[simp] theorem afterMoves_now (ms : List Move) (u : State) : (afterMoves ms u).now = u.now :=
  afterMoves_field _ portStep_now ms u
@[simp] theorem afterMoves_rxq (ms : List Move) (u : State) : (afterMoves ms u).rxq = u.rxq :=
  afterMoves_field _ portStep_rxq ms u
@[simp] theorem afterMoves_cfg (ms : List Move) (u : State) : (afterMoves ms u).cfg = u.cfg :=
  afterMoves_field _ portStep_cfg ms u
@[simp] theorem afterMoves_script (ms : List Move) (u : State) : (afterMoves ms u).script = u.script :=
  afterMoves_field _ portStep_script ms u
@[simp] theorem afterMoves_draws (ms : List Move) (u : State) : (afterMoves ms u).draws = u.draws :=
  afterMoves_field _ portStep_draws ms u

theorem callers_length_requestStep (i : Nat) (op : Byte) (val : Word) (s : State) :
    (requestStep i op val s).callers.length = s.callers.length := by
  unfold requestStep; split <;> simp

theorem callers_length_responseStep (i : Nat) (s : State) :
    (responseStep i s).callers.length = s.callers.length := by
  unfold responseStep
  split
  · split <;> simp
  · rfl

@[simp] theorem afterMoves_callers_length (ms : List Move) (u : State) :
    (afterMoves ms u).callers.length = u.callers.length :=
  afterMoves_field (fun s => s.callers.length)
    (fun m s => by cases m <;> simp [portStep, callers_length_requestStep, callers_length_responseStep]) ms u

end Sys2Proof.Machine
end

