-- ==== Sys2Proof/Laws/PerInstr.lean ====
section
/-!
SUPPORT. Statements made once for each instruction: how many bytes its encoding has (30_encoding R90: six for a frame; the
code rows of the opcode table have one).
-/

namespace Sys2Proof.Laws.EncodeLength

/-- The encoding of an instruction has the one length of its format (30_encoding R90, R104). -/
def Statement (i : Instr) : Prop :=
  (encode i).length = match i.kind with
    | .request => frameLen
    | .response => frameLen
    | .errCode => 1

theorem command (v : Word) : Statement (.command v) := rfl
theorem write (v : Word) : Statement (.write v) := rfl
theorem read (v : Word) : Statement (.read v) := rfl
theorem ack (v : Word) : Statement (.ack v) := rfl
theorem nak (code reserved : Byte) : Statement (.nak code reserved) := rfl
theorem errInvalidAddress : Statement .errInvalidAddress := rfl
theorem errInvalidBcc : Statement .errInvalidBcc := rfl
theorem errInvalidCommand : Statement .errInvalidCommand := rfl
theorem errInvalidParameter : Statement .errInvalidParameter := rfl
theorem errOutOfRange : Statement .errOutOfRange := rfl
theorem errUnknown (code : Byte) : Statement (.errUnknown code) := rfl

end Sys2Proof.Laws.EncodeLength
end

