-- ==== Sys2Proof/Tests/Slice0.lean ====
section
/-!
SUPPORT. Tests of the model against the spec's worked examples and vectors (95_test_vectors), each one step or one
decoding; and for every statement with hypotheses a witness that meets them.
-/

namespace Sys2Proof.Tests

open Sys2Proof Sys2Proof.Machine

/-! ### Well-formedness, one ill-formed term for its one check -/

theorem test_named_code_is_no_unknown : (Instr.errUnknown 0x02#8).wellFormed = false := by decide
theorem test_unnamed_code_is_unknown : (Instr.errUnknown 0x03#8).wellFormed = true := by decide

/-! ### Decoding: words written out from 30_encoding R91, R92, R100 -/

-- stx 00000010, opcode 01000011, data 0x0203, etx 00000011, bcc 01000010 (V11)
theorem test_decode_command :
    decodeTableWord 48 0b000000100100001100000010000000110000001101000010 = some (.command 0x0203#16) := by decide
-- opcode 01010111, data 0x1234, bcc 0x71 (V8)
theorem test_decode_write :
    decodeTableWord 48 0b000000100101011100010010001101000000001101110001 = some (.write 0x1234#16) := by decide
-- opcode 01010010, data 0xABCD, bcc 0x34 (V13)
theorem test_decode_read :
    decodeTableWord 48 0b000000100101001010101011110011010000001100110100 = some (.read 0xABCD#16) := by decide
-- type 00000110, result 0x0203, bcc 0x07 (V19)
theorem test_decode_ack :
    decodeTableWord 48 0b000000100000011000000010000000110000001100000111 = some (.ack 0x0203#16) := by decide
-- type 00010101, code 0x02, reserved 0xAB, bcc 0xBC (V22)
theorem test_decode_nak :
    decodeTableWord 48 0b000000100001010100000010101010110000001110111100 = some (.nak 0x02#8 0xAB#8) := by decide
theorem test_decode_err_invalid_address : decodeTableWord 8 0b00000010 = some .errInvalidAddress := by decide
theorem test_decode_err_invalid_bcc : decodeTableWord 8 0b00000100 = some .errInvalidBcc := by decide
theorem test_decode_err_invalid_command : decodeTableWord 8 0b00000101 = some .errInvalidCommand := by decide
theorem test_decode_err_invalid_parameter : decodeTableWord 8 0b00000110 = some .errInvalidParameter := by decide
theorem test_decode_err_out_of_range : decodeTableWord 8 0b00000111 = some .errOutOfRange := by decide
theorem test_decode_err_unknown : decodeTableWord 8 0b00000011 = some (.errUnknown 0x03#8) := by decide

/-- A decoded result as an option, for tests. -/
def okOf {α : Type} : Except Reject α → Option α
  | .ok a => some a
  | .error _ => none

/-- A rejection as an option, for tests. -/
def rejectOf {α : Type} : Except Reject α → Option Reject
  | .ok _ => none
  | .error e => some e

-- V29: bad type and bad BCC, the checksum is reported first
theorem test_reject_checksum_first :
    rejectOf (decodeResponse [0x02#8, 0x07#8, 0x00#8, 0x07#8, 0x03#8, 0x01#8]) = some (.checksum 0x00#8 0x01#8) := by
  decide
-- V39: markers swapped, checksum right
theorem test_reject_framing :
    rejectOf (decodeResponse [0x03#8, 0x06#8, 0x12#8, 0x34#8, 0x02#8, 0x20#8]) = some .framing := by decide
-- V38: the valid beginning of seven bytes is not parsed
theorem test_reject_length :
    rejectOf (decodeResponse [0x02#8, 0x06#8, 0x12#8, 0x34#8, 0x03#8, 0x20#8, 0x00#8]) = some (.length 7) := by decide
-- V28
theorem test_reject_resp_type :
    rejectOf (decodeResponse [0x02#8, 0x07#8, 0x00#8, 0x07#8, 0x03#8, 0x00#8]) = some (.respType 0x07#8) := by decide
-- R98: 0x41 is no request opcode
theorem test_reject_opcode :
    rejectOf (decodeRequestFrame [0x02#8, 0x41#8, 0x00#8, 0x00#8, 0x03#8, 0x41#8]) = some (.opcode 0x41#8) := by decide

/-! ### Frame Codec and Error Mapper -/

-- V5
theorem test_bcc_of_own_bcc : calculateBCC [0x06#8, 0x12#8, 0x34#8, 0x20#8] = 0x00#8 := by decide
-- S1, V6
theorem test_build_read :
    (buildFrame 0x52#8 0x0010#16).toList = [0x02#8, 0x52#8, 0x00#8, 0x10#8, 0x03#8, 0x42#8] := by decide
-- V15
theorem test_build_top_bit :
    (buildFrame 0x43#8 0x8000#16).toList = [0x02#8, 0x43#8, 0x80#8, 0x00#8, 0x03#8, 0xC3#8] := by decide
-- S2, V33, 90_conflicts C1
theorem test_printed_ack_fails :
    parseResponse [0x02#8, 0x06#8, 0x12#8, 0x34#8, 0x03#8, 0x26#8] =
      { status := .checksum, value := 0#16, info := 0x2026#16 } := by decide
-- V35
theorem test_parse_unknown_device_code :
    parseResponse [0x02#8, 0x15#8, 0x12#8, 0x34#8, 0x03#8, 0x33#8] =
      { status := .device, value := 0#16, info := 0x0012#16 } := by decide
-- M8 (decision D17)
theorem test_hex2 : hex2 0x1C#8 = "1C" := by decide
-- R107: K and N of a timeout after two bytes of the write phase (P3)
theorem test_timeout_text :
    resultText { status := .timeout, value := 0#16, info := 0x0002#16 } =
      some (Config.wording .timeout 0x0002#16 0 ++ "timeout after 2/6 bytes" ++ Config.wording .timeout 0x0002#16 1) := by rfl
-- R212: the length is saturated
theorem test_info_length_saturates : infoLength 300 = 0x00FF#16 := by decide

/-! ### States for single steps -/

/-- `OPEN = 1`, idle, `NOW = 100`, `T_DEADLINE = 20` and two callers as in 95_test_vectors section 4, attempts of up to six
bytes. -/
def base : State :=
  { State.reset with
    isOpen := true
    now := 100
    cfg := { tDeadline := 20, tChRead := 10, tChWrite := none, maxXfer := 6, bitRate := 1 } }

/-- Caller 0 waits with `send(op, val)`. -/
def waiting (op : Byte) (val : Word) : State := setPend 0 { valid := true, op := op, val := val } base

/-- READ 0x0010 of caller 0 in flight: the state after vector T1. -/
def sending : State := startTransaction 0x52#8 0x0010#16 base

/-- The same with two bytes accepted and `NOW = 105` (vector T3). -/
def sendingTwo : State := { sending with txCnt := 2, now := 105 }

/-- The same in the read phase with one byte received, 02, and `RXQ = [06 12 34]` (vector T7). -/
def reading : State :=
  { sending with
    phase := .read
    txCnt := 6
    rxBuf := ⟨0x02#8, 0x00#8, 0x00#8, 0x00#8, 0x00#8, 0x00#8⟩
    rxCnt := 1
    rxq := [0x06#8, 0x12#8, 0x34#8] }

/-- The same in the decode phase with a reply. -/
def replied (reply : Frame) : State := { sending with phase := .decode, txCnt := 6, rxBuf := reply, rxCnt := 6 }

/-- The ACK of 0x1234 (V16). -/
def ack1234 : Frame := ⟨0x02#8, 0x06#8, 0x12#8, 0x34#8, 0x03#8, 0x20#8⟩

/-- The NAK with code 0x05 (V25). -/
def nak05 : Frame := ⟨0x02#8, 0x15#8, 0x05#8, 0x00#8, 0x03#8, 0x10#8⟩

/-- A clock edge with everything ready and nothing asked. -/
def readyEdge : PortsIn :=
  { rst := false, openReq := false, arb := 0, req := [], rspReady := [], txReady := true, txErr := false,
    rxValid := true, rxErr := false, device := [] }

/-- A clock edge on which caller 1 asks for `send(0x57, 0x0001)`. -/
def askingEdge : PortsIn := { readyEdge with req := [none, some (0x57#8, 0x0001#16)] }

/-- `s` with one event to come. -/
def next1 (e : Event) (s : State) : State := { s with script := [e] }

/-- A read in flight at `NOW = 119` with write attempts of at most three ticks and these events to come. -/
def lateRead (events : List Event) : State :=
  { reading with
    now := 119
    cfg := { tDeadline := 20, tChRead := 10, tChWrite := some 3, maxXfer := 6, bitRate := 1 }
    script := events }

/-- An empty read attempt of ten ticks, the step that sees the deadline passed, and time. -/
def lateEvents : List Event := [.move (.read 0 .ok 10), .move (.read 6 .ok 0), .move (.advance 50)]

/-- A field of the next state, for tests. -/
def get {α : Type} (f : State → α) : Out → Option α
  | .next t => some (f t)
  | .fault _ => none
  | .refused _ => none

/-- `RSP[i]` as (status code, value, info) if valid, for tests. -/
def rspCodes (i : Nat) (s : State) : Option (BitVec 4 × Word × Word) :=
  match rspOf i s with
  | some r => if r.valid then some (statusCode r.status, r.value, r.info) else none
  | none => none

/-! ### The rows of the table -/

-- T1
theorem test_read_starts :
    get (fun t => (t.txBuf.toList, t.deadline, t.phase)) (exec (.read 0x0010#16) base) =
      some ([0x02#8, 0x52#8, 0x00#8, 0x10#8, 0x03#8, 0x42#8], 120, .write) := by decide
-- V7
theorem test_command_starts :
    get (fun t => t.txBuf.toList) (exec (.command 0x0000#16) base) =
      some [0x02#8, 0x43#8, 0x00#8, 0x00#8, 0x03#8, 0x43#8] := by decide
-- V9
theorem test_write_starts :
    get (fun t => t.txBuf.toList) (exec (.write 0xFFFF#16) base) =
      some [0x02#8, 0x57#8, 0xFF#8, 0xFF#8, 0x03#8, 0x57#8] := by decide
-- T17 (b)
theorem test_write_waits_while_held : get (fun t => t.txBuf) (exec (.write 0x1234#16) reading) = some reading.txBuf := by
  decide
-- T11
theorem test_ack_completes :
    get (fun t => (rspCodes 0 t, t.phase)) (exec (.ack 0x1234#16) (replied ack1234)) =
      some (some (0#4, 0x1234#16, 0x0000#16), .idle) := by decide
-- V22: the reserved byte is ignored
theorem test_nak_completes :
    get (rspCodes 0) (exec (.nak 0x02#8 0xAB#8) (replied nak05)) = some (some (8#4, 0x0000#16, 0x0102#16)) := by decide
theorem test_err_invalid_address :
    get (rspCodes 0) (exec .errInvalidAddress (replied nak05)) = some (some (8#4, 0x0000#16, 0x0102#16)) := by decide
-- P3
theorem test_err_invalid_bcc :
    get (rspCodes 0) (exec .errInvalidBcc (replied nak05)) = some (some (8#4, 0x0000#16, 0x0204#16)) := by decide
-- T13
theorem test_err_invalid_command :
    get (rspCodes 0) (exec .errInvalidCommand (replied nak05)) = some (some (8#4, 0x0000#16, 0x0305#16)) := by decide
theorem test_err_invalid_parameter :
    get (rspCodes 0) (exec .errInvalidParameter (replied nak05)) = some (some (8#4, 0x0000#16, 0x0406#16)) := by decide
-- P2
theorem test_err_out_of_range :
    get (rspCodes 0) (exec .errOutOfRange (replied nak05)) = some (some (8#4, 0x0000#16, 0x0507#16)) := by decide
-- M6
theorem test_err_unknown :
    get (rspCodes 0) (exec (.errUnknown 0x09#8) (replied nak05)) = some (some (8#4, 0x0000#16, 0x0009#16)) := by decide

/-! ### Steps of the core (95_test_vectors section 4) -/

-- T1
theorem test_step_grant :
    get (fun t => (t.owner, t.reqOp, t.reqVal, waits 0 t, t.deadline))
      (step (next1 (.move (.grant 0)) (waiting 0x52#8 0x0010#16))) =
      some (0, 0x52#8, 0x0010#16, false, 120) := by decide
-- T2 (with caller 0)
theorem test_step_illegal_opcode :
    get (fun t => (rspCodes 0 t, t.phase, waits 0 t))
      (step (next1 (.move (.grant 0)) (waiting 0x41#8 0x0000#16))) =
      some (some (9#4, 0x0000#16, 0x0041#16), .idle, false) := by decide
-- T3
theorem test_step_partial_write :
    get (fun t => (t.txCnt, t.phase, t.wireTx)) (step (next1 (.move (.write 3 .ok 0)) sendingTwo)) =
      some (5, .write, [0x00#8, 0x10#8, 0x03#8]) := by decide
-- T4
theorem test_step_write_timeout :
    get (fun t => (rspCodes 0 t, t.wireTx)) (step (next1 (.move (.write 3 .ok 0)) { sendingTwo with now := 120 })) =
      some (some (3#4, 0x0000#16, 0x0002#16), []) := by decide
-- T5
theorem test_step_write_failed :
    get (fun t => (rspCodes 0 t, t.wireTx))
      (step (next1 (.move (.write 1 .fail 0)) { sending with txCnt := 4, now := 110 })) =
      some (some (1#4, 0x0000#16, 0x0000#16), [0x03#8]) := by decide
-- T6, first half: the sixth byte ends the phase although the attempt outlasts the deadline
theorem test_step_last_write_overruns :
    get (fun t => (t.txCnt, t.phase, t.now))
      (step (next1 (.move (.write 1 .ok 5)) { sending with txCnt := 5, now := 119 })) =
      some (6, .read, 124) := by decide
-- T7
theorem test_step_partial_read :
    get (fun t => (t.rxBuf.toList.take 3, t.rxCnt, t.rxq, t.phase)) (step (next1 (.move (.read 2 .ok 0)) reading)) =
      some ([0x02#8, 0x06#8, 0x12#8], 3, [0x34#8], .read) := by decide
-- T9
theorem test_step_read_timeout :
    get (fun t => (rspCodes 0 t, t.rxq))
      (step (next1 (.move (.read 1 .ok 0)) { reading with rxCnt := 4, now := 121, rxq := [0x03#8] })) =
      some (some (3#4, 0x0000#16, 0x0104#16), [0x03#8]) := by decide
-- T10
theorem test_step_read_failed :
    get (fun t => (rspCodes 0 t, t.rxq))
      (step (next1 (.move (.read 1 .fail 0)) { reading with rxCnt := 3, rxq := [0x34#8, 0x03#8, 0x20#8] })) =
      some (some (2#4, 0x0000#16, 0x0000#16), [0x03#8, 0x20#8]) := by decide
-- T16: the decode step does not test the deadline
theorem test_step_decode_after_deadline :
    get (rspCodes 0)
      (step (next1 (.move .decode) { replied ⟨0x02#8, 0x06#8, 0x00#8, 0x2A#8, 0x03#8, 0x2C#8⟩ with now := 500 })) =
      some (some (0#4, 0x002A#16, 0x0000#16)) := by decide
-- T18 (b)
theorem test_step_decode_resp_type :
    get (rspCodes 0) (step (next1 (.move .decode) (replied ⟨0x02#8, 0x52#8, 0x00#8, 0x10#8, 0x03#8, 0x42#8⟩))) =
      some (some (7#4, 0x0000#16, 0x0052#16)) := by decide
-- R76, R192, D13: an expired read phase lets no time pass before its next step
theorem test_step_no_time_once_expired :
    get (fun t => t.now) (step (next1 (.move (.advance 5)) { reading with now := 121 })) = some 121 := by decide
-- R76, R74: time in the read phase passes by at most T_CHREAD = 10 at once
theorem test_step_time_of_one_attempt :
    get (fun t => t.now) (step (next1 (.move (.advance 50)) { reading with now := 105 })) = some 115 := by decide
-- R182
theorem test_step_response_taken :
    get (rspWaits 0) (step (next1 (.move (.response 0)) (setRsp 0 ⟨true, .ok, 0x1234#16, 0#16⟩ base))) =
      some false := by decide
-- R250, R251
theorem test_step_reset_keeps_environment :
    get (fun t => (t.isOpen, t.phase, t.rxq, t.now)) (step (next1 (.move .reset) reading)) =
      some (false, .idle, [0x06#8, 0x12#8, 0x34#8], 100) := by decide
-- R186: an edge moves one byte and one tick
theorem test_edge_one_byte_one_tick :
    get (fun t => (t.txCnt, t.wireTx, t.now)) (step (next1 (.edge readyEdge) sending)) =
      some (1, [0x02#8], 101) := by decide

/-! ### Placement of an instruction (the host's interface) -/

theorem test_place_read :
    get (fun t => t.txBuf.toList) (step (State.reset.withFetchWord 48 0x025200100342)) =
      some [0x02#8, 0x52#8, 0x00#8, 0x10#8, 0x03#8, 0x42#8] := by decide
theorem test_place_ack :
    get (rspCodes 0) (step (State.reset.withFetchWord 48 0x020612340320)) = some (some (0#4, 0x1234#16, 0#16)) := by
  decide
theorem test_place_err_out_of_range :
    get (rspCodes 0) (step (State.reset.withFetchWord 8 0x07)) = some (some (8#4, 0#16, 0x0507#16)) := by decide

/-! ### Witnesses: for every statement with hypotheses, states and operands that meet them all -/

theorem witness_XorFoldLaws : [0x52#8, 0x00#8, 0x10#8].Perm [0x10#8, 0x52#8, 0x00#8] := by decide
theorem witness_BuildFrameBytes : hi8 0xFFFF#16 = lo8 0xFFFF#16 ∧ hi8 0x4300#16 ^^^ lo8 0x4300#16 = 0x43#8 := by decide
theorem witness_CodecPorts : (7 : Nat) ≠ 6 ∧ (0 : Nat) ≠ 6 := by decide
theorem witness_DecodeOfEncode :
    (∀ i ∈ [Instr.command 0xFFFF#16, .nak 0xFF#8 0xFF#8, .errUnknown 0x08#8], i.wellFormed = true) := by decide
theorem witness_EncodeOfDecode :
    okOf (decode .request [0x02#8, 0x43#8, 0x00#8, 0x00#8, 0x03#8, 0x43#8]) = some (.command 0x0000#16) ∧
    okOf (decode .response ack1234.toList) = some (.ack 0x1234#16) ∧
    okOf (decode .errCode [0xFF#8]) = some (.errUnknown 0xFF#8) := by decide
theorem witness_RequestReadAsReplyFails :
    okOf (decodeRequestFrame [0x02#8, 0x52#8, 0x00#8, 0x10#8, 0x03#8, 0x42#8]) = some (.read 0x0010#16) ∧
    legalOpcode 0x57#8 = true := by decide
theorem witness_ParseResponseChecks :
    ([] : List Byte).length ≠ 6 ∧ (ack1234.toList ++ [0x00#8]).length ≠ 6 ∧
    (⟨0x03#8, 0x06#8, 0x12#8, 0x34#8, 0x02#8, 0x20#8⟩ : Frame).b0 ≠ 0x02#8 ∧
    (⟨0x02#8, 0x06#8, 0x12#8, 0x34#8, 0x00#8, 0x20#8⟩ : Frame).b4 ≠ 0x03#8 ∧
    0x06#8 ^^^ 0x12#8 ^^^ 0x34#8 ≠ 0x26#8 ∧
    (0x00#8 ^^^ 0x00#8 ^^^ 0x00#8 = 0x00#8 ∧ 0x00#8 ≠ 0x06#8 ∧ 0x00#8 ≠ 0x15#8) := by decide
theorem witness_AckRoundTrip : legalOpcode 0x43#8 = true ∧ legalOpcode 0x57#8 = true ∧ legalOpcode 0x52#8 = true := by
  decide
theorem witness_SingleByteErrorsDetected :
    (parseResponse ack1234.toList).status = .ok ∧ (parseResponse nak05.toList).status = .device ∧
    0x13#8 ≠ ack1234.get 2 ∧ 0x00#8 ≠ ack1234.get 0 ∧ 0x00#8 ^^^ 0x01#8 ^^^ 0x01#8 ^^^ 0x00#8 = 0x00#8 := by decide
theorem witness_DeviceCategories :
    ∀ c ∈ [0x00#8, 0x01#8, 0x03#8, 0x08#8, 0xFF#8],
      c ≠ 0x02#8 ∧ c ≠ 0x04#8 ∧ c ≠ 0x05#8 ∧ c ≠ 0x06#8 ∧ c ≠ 0x07#8 := by decide
theorem witness_ResultTexts :
    ∀ st ∈ [Status.ok, .writeFailed, .readFailed, .timeout, .length, .framing, .checksum, .respType, .device, .illegalOpcode],
      ({ status := st, value := 0#16, info := 0#16 } : Result).status = st := by decide
theorem witness_StatusCodesAndResponsePorts :
    rspOf 0 (setRsp 0 ⟨true, .ok, 0x1234#16, 0#16⟩ base) = some ⟨true, .ok, 0x1234#16, 0#16⟩ ∧
    base.callers.length ≤ 2 := by decide
theorem witness_RequestRowsStart : base.isOpen = true ∧ base.phase = .idle := by decide
theorem witness_RequestRowsWaitAndFrame_wait :
    (Instr.read 0x0000#16).kind = .request ∧ State.reset.isOpen = false ∧ sending.phase ≠ .idle := by decide
theorem witness_RequestRowsWaitAndFrame :
    ∃ t, (Instr.write 0x1234#16).kind = .request ∧ exec (.write 0x1234#16) base = .next t :=
  ⟨_, rfl, rfl⟩
theorem witness_AckRowSucceeds :
    (replied ack1234).phase = .decode ∧ (replied ack1234).owner < (replied ack1234).callers.length := by decide
theorem witness_NakRowReportsDeviceError :
    (replied nak05).phase = .decode ∧ (replied nak05).owner < (replied nak05).callers.length := by decide
theorem witness_ErrorCodeRowsReport :
    { replied nak05 with owner := 1 }.phase = .decode ∧
      { replied nak05 with owner := 1 }.owner < { replied nak05 with owner := 1 }.callers.length := by decide
theorem witness_ReplyRowsWaitAndFrame_wait :
    (Instr.ack 0x0000#16).kind ≠ .request ∧ (Instr.errUnknown 0x00#8).kind ≠ .request ∧ base.phase ≠ .decode := by decide
theorem witness_ReplyRowsWaitAndFrame :
    ∃ t, (Instr.errInvalidBcc).kind ≠ .request ∧ exec .errInvalidBcc (replied nak05) = .next t ∧ t.phase = .idle :=
  ⟨_, by decide, rfl, rfl⟩
theorem witness_ReplyRowsStopWithoutOwner :
    (Instr.nak 0x02#8 0x00#8).kind ≠ .request ∧ { replied nak05 with owner := 2 }.phase = .decode ∧
      { replied nak05 with owner := 2 }.callers.length ≤ { replied nak05 with owner := 2 }.owner := by decide
theorem witness_StepRunsDecodedInstruction :
    ((next1 (.move (.grant 0)) (waiting 0x52#8 0x0010#16)).script = .move (.grant 0) :: [] ∧
      (next1 (.move (.grant 0)) (waiting 0x52#8 0x0010#16)).isOpen = true ∧
      (next1 (.move (.grant 0)) (waiting 0x52#8 0x0010#16)).phase = .idle ∧
      pendOf 0 (next1 (.move (.grant 0)) (waiting 0x52#8 0x0010#16)) = some ⟨true, 0x52#8, 0x0010#16⟩ ∧
      decodeRequest 0x52#8 0x0010#16 = some (.read 0x0010#16)) ∧
    State.reset.script = [] ∧
    ((next1 (.move .decode) (replied nak05)).script = .move .decode :: [] ∧
      (next1 (.move .decode) (replied nak05)).phase = .decode ∧
      okOf (decodeResponse (next1 (.move .decode) (replied nak05)).rxBuf.toList) = some (.nak 0x05#8 0x00#8)) := by
  decide
theorem witness_EdgeRunsDecodedInstruction :
    (next1 (.edge readyEdge) (replied ack1234)).script = .edge readyEdge :: [] ∧ readyEdge.rst = false ∧
    (next1 (.edge readyEdge) (replied ack1234)).phase = .decode ∧
    okOf (decodeResponse (next1 (.edge readyEdge) (replied ack1234)).rxBuf.toList) = some (.ack 0x1234#16) := by decide
theorem witness_EdgeRunsDecodedInstruction_grant :
    (next1 (.edge readyEdge) (waiting 0x57#8 0x0001#16)).script = .edge readyEdge :: [] ∧ readyEdge.rst = false ∧
    (next1 (.edge readyEdge) (waiting 0x57#8 0x0001#16)).isOpen = true ∧
    (next1 (.edge readyEdge) (waiting 0x57#8 0x0001#16)).phase = .idle ∧
    arbiter readyEdge.arb (next1 (.edge readyEdge) (waiting 0x57#8 0x0001#16)) = some 0 ∧
    pendOf 0 (next1 (.edge readyEdge) (waiting 0x57#8 0x0001#16)) = some ⟨true, 0x57#8, 0x0001#16⟩ ∧
    decodeRequest 0x57#8 0x0001#16 = some (.write 0x0001#16) := by decide
theorem witness_GrantStartsTransaction :
    (waiting 0x43#8 0xFFFF#16).isOpen = true ∧ (waiting 0x43#8 0xFFFF#16).phase = .idle ∧
    pendOf 0 (waiting 0x43#8 0xFFFF#16) = some ⟨true, 0x43#8, 0xFFFF#16⟩ := by decide
theorem witness_GrantRefusesIllegalOpcode :
    (waiting 0x41#8 0x0000#16).isOpen = true ∧ (waiting 0x41#8 0x0000#16).phase = .idle ∧
    pendOf 0 (waiting 0x41#8 0x0000#16) = some ⟨true, 0x41#8, 0x0000#16⟩ ∧
    0x41#8 ≠ 0x43#8 ∧ 0x41#8 ≠ 0x57#8 ∧ 0x41#8 ≠ 0x52#8 := by decide
theorem witness_DisabledMovesChangeNothing_grant :
    State.reset.isOpen = false ∧ reading.phase ≠ .idle ∧ waits 1 base = false ∧ waits 2 base = false := by decide
theorem witness_WriteStepEffect :
    sendingTwo.phase = .write ∧ sendingTwo.now < sendingTwo.deadline ∧
    { sendingTwo with now := 120 }.deadline ≤ { sendingTwo with now := 120 }.now := by decide
theorem witness_ReadStepEffect :
    reading.phase = .read ∧ reading.now < reading.deadline ∧ reading.rxCnt ≤ 6 ∧
    { reading with now := 120 }.deadline ≤ { reading with now := 120 }.now := by decide
theorem witness_DecodeStepIsParseResponse : (replied nak05).phase = .decode ∧ reading.phase ≠ .decode := by decide
theorem witness_CompleteDelivers : { base with owner := 1 }.owner < { base with owner := 1 }.callers.length := by decide
theorem witness_RequestStepLatches :
    (0 < base.callers.length ∧ waits 0 base = false ∧ base.phase = .idle ∧ rspWaits 0 base = false) ∧
    (1 < sending.callers.length ∧ waits 1 sending = false ∧ sending.owner ≠ 1 ∧ rspWaits 1 sending = false) ∧
    base.callers.length ≤ 2 ∧ waits 0 (waiting 0x52#8 0x0010#16) = true ∧ (sending.phase ≠ .idle ∧ sending.owner = 0) ∧
    rspWaits 0 (setRsp 0 ⟨true, .ok, 0#16, 0#16⟩ base) = true := by decide
theorem witness_ResponseStepTakes :
    rspOf 0 (setRsp 0 ⟨true, .ok, 0x1234#16, 0#16⟩ base) = some ⟨true, .ok, 0x1234#16, 0#16⟩ ∧
    rspWaits 0 base = false ∧ rspWaits 2 base = false := by decide
theorem witness_OpenAndConfigure : State.reset.isOpen = false ∧ base.isOpen = true := by decide
theorem witness_DeviceAndTimeMoves :
    base.phase = .idle ∧ (sending.phase = .write ∧ sending.now < sending.deadline ∧ sending.txCnt ≠ 6) ∧
    (sending.phase = .write ∧ sending.cfg.tChWrite = none) ∧
    ((lateRead []).cfg.tChWrite.isSome = true ∧ { lateRead [] with phase := .write, now := 120 }.phase = .write ∧
      { lateRead [] with phase := .write, now := 120 }.deadline ≤ { lateRead [] with phase := .write, now := 120 }.now) ∧
    (reading.phase = .read ∧ reading.now < reading.deadline ∧ reading.rxCnt ≠ 6) ∧
    { reading with now := 120 }.deadline ≤ { reading with now := 120 }.now ∧ (replied nak05).phase = .decode := by decide
theorem witness_CoherentAtReset : (1 : Nat) ≤ 1 ∧ 1 ≤ Config.nCallers := by decide
theorem witness_StepKeepsCoherent :
    ∃ t, Coherent (next1 (.edge readyEdge) reading) ∧ step (next1 (.edge readyEdge) reading) = .next t :=
  ⟨_, by decide, rfl⟩
theorem witness_CoherentNeverStops : Coherent State.reset ∧ Coherent sendingTwo ∧ Coherent (replied nak05) :=
  ⟨by decide, by decide, by decide⟩
theorem witness_PhaseTransitions_idle :
    ∃ t, Coherent (next1 (.move (.grant 0)) (waiting 0x52#8 0x0010#16)) ∧
      resetEvent (next1 (.move (.grant 0)) (waiting 0x52#8 0x0010#16)) = false ∧
      step (next1 (.move (.grant 0)) (waiting 0x52#8 0x0010#16)) = .next t ∧ t.phase = .write :=
  ⟨_, by decide, by decide, rfl, rfl⟩
theorem witness_PhaseTransitions_write :
    ∃ t, Coherent (next1 (.move (.write 4 .ok 0)) sendingTwo) ∧
      resetEvent (next1 (.move (.write 4 .ok 0)) sendingTwo) = false ∧
      step (next1 (.move (.write 4 .ok 0)) sendingTwo) = .next t ∧ t.phase = .read :=
  ⟨_, by decide, by decide, rfl, rfl⟩
theorem witness_PhaseTransitions_read :
    ∃ t, Coherent (next1 (.move (.read 1 .fail 0)) reading) ∧
      resetEvent (next1 (.move (.read 1 .fail 0)) reading) = false ∧
      step (next1 (.move (.read 1 .fail 0)) reading) = .next t ∧ t.phase = .idle :=
  ⟨_, by decide, by decide, rfl, rfl⟩
theorem witness_PhaseTransitions_decode :
    ∃ t, Coherent (next1 (.move .decode) (replied nak05)) ∧ resetEvent (next1 (.move .decode) (replied nak05)) = false ∧
      step (next1 (.move .decode) (replied nak05)) = .next t ∧ t.phase = .idle :=
  ⟨_, by decide, by decide, rfl, rfl⟩
theorem witness_TransactionUndisturbed :
    ∃ t, reading.phase ≠ .idle ∧ resetEvent (next1 (.edge askingEdge) reading) = false ∧
      step (next1 (.edge askingEdge) reading) = .next t ∧ t.phase ≠ .idle :=
  ⟨_, by decide, by decide, rfl, by decide⟩
theorem witness_TransactionUndisturbed_ends :
    ∃ t, (replied nak05).phase ≠ .idle ∧ resetEvent (next1 (.move .decode) (replied nak05)) = false ∧
      step (next1 (.move .decode) (replied nak05)) = .next t ∧ t.phase = .idle ∧
      Coherent (next1 (.move .decode) (replied nak05)) :=
  ⟨_, by decide, by decide, rfl, rfl, by decide⟩
-- caller 1 waits, asks again and is not granted, while caller 0 is served
theorem witness_TransactionUndisturbed_waiting :
    ∃ t, reading.phase ≠ .idle ∧
      step (next1 (.edge askingEdge) (setPend 1 ⟨true, 0x43#8, 0x0007#16⟩ reading)) = .next t ∧
      waits 1 (setPend 1 ⟨true, 0x43#8, 0x0007#16⟩ reading) = true ∧ pendOf 1 t = some ⟨true, 0x43#8, 0x0007#16⟩ :=
  ⟨_, by decide, rfl, by decide, by decide⟩
theorem witness_OpenUntilReset :
    ∃ t, base.isOpen = true ∧ resetEvent (next1 (.edge readyEdge) base) = false ∧
      step (next1 (.edge readyEdge) base) = .next t :=
  ⟨_, by decide, by decide, rfl⟩
theorem witness_WireGetsNextBytesOnly :
    ∃ t, step (next1 (.move (.write 3 .ok 0)) sendingTwo) = .next t ∧ t.wireTx.length = 3 := ⟨_, rfl, rfl⟩
theorem witness_WireIsSerialised :
    ∃ t, Coherent (next1 (.move (.grant 0)) (waiting 0x52#8 0x0010#16)) ∧
      (next1 (.move (.grant 0)) (waiting 0x52#8 0x0010#16)).phase = .idle ∧
      runSteps 1 (next1 (.move (.grant 0)) (waiting 0x52#8 0x0010#16)) = .next t ∧ t.phase = .write ∧
      grants 1 (next1 (.move (.grant 0)) (waiting 0x52#8 0x0010#16)) = [(0x52#8, 0x0010#16)] :=
  ⟨_, by decide, rfl, rfl, rfl, rfl⟩
theorem witness_ReplyBytesKeepOrder :
    ∃ t, Coherent (next1 (.edge { readyEdge with device := [0x03#8] }) reading) ∧ reading.phase = .read ∧
      step (next1 (.edge { readyEdge with device := [0x03#8] }) reading) = .next t ∧ t.phase ≠ .idle :=
  ⟨_, by decide, rfl, rfl, by decide⟩
theorem witness_ReceiveQueueNeverFlushed :
    ∃ t, step (next1 (.move (.read 2 .fail 0)) reading) = .next t ∧ t.rxq = [0x34#8] := ⟨_, rfl, rfl⟩
theorem witness_TimeNeverDecreases :
    ∃ t, step (next1 (.edge readyEdge) base) = .next t ∧ nextEvent (next1 (.edge readyEdge) base) = .edge readyEdge :=
  ⟨_, rfl, rfl⟩
theorem witness_UnwrittenDataNeverRead :
    ∃ s', CountsOk (next1 (.move (.grant 0)) (waiting 0x52#8 0x0010#16)) ∧
      PhaseOk (next1 (.move (.grant 0)) (waiting 0x52#8 0x0010#16)) ∧
      Agree (next1 (.move (.grant 0)) (waiting 0x52#8 0x0010#16))
        { next1 (.move (.grant 0)) (waiting 0x52#8 0x0010#16) with rxBuf := nak05, deadline := 7, owner := 9 } ∧
      step (next1 (.move (.grant 0)) (waiting 0x52#8 0x0010#16)) = .next s' :=
  ⟨_, by decide, by decide, ⟨⟨rfl, rfl, rfl, rfl, rfl, rfl, rfl, rfl, rfl⟩, fun h => absurd rfl h⟩, rfl⟩
-- in flight: another opcode, another value, another byte not yet received
theorem witness_UnwrittenDataNeverRead_inFlight :
    ∃ s', CountsOk (next1 (.move (.read 2 .ok 0)) reading) ∧ PhaseOk (next1 (.move (.read 2 .ok 0)) reading) ∧
      Agree (next1 (.move (.read 2 .ok 0)) reading)
        { next1 (.move (.read 2 .ok 0)) reading with
          reqOp := 0x43#8, reqVal := 0xFFFF#16, rxBuf := reading.rxBuf.set 5 0xFF#8 } ∧
      step (next1 (.move (.read 2 .ok 0)) reading) = .next s' :=
  ⟨_, by decide, by decide,
    ⟨⟨rfl, rfl, rfl, rfl, rfl, rfl, rfl, rfl, rfl⟩, fun _ => ⟨rfl, rfl, rfl, rfl, rfl, by decide⟩⟩, rfl⟩
theorem witness_ResultGoesToItsCaller :
    ∃ t, Coherent (next1 (.move .decode) (replied ack1234)) ∧
      resetEvent (next1 (.move .decode) (replied ack1234)) = false ∧
      step (next1 (.move .decode) (replied ack1234)) = .next t ∧
      rspOf 0 t = some ⟨true, .ok, 0x1234#16, 0x0000#16⟩ ∧ rspWaits 0 (replied ack1234) = false :=
  ⟨_, by decide, by decide, rfl, rfl, by decide⟩
theorem witness_ResultGoesToItsCaller_refused :
    ∃ t, Coherent (next1 (.move (.grant 0)) (waiting 0x41#8 0x0000#16)) ∧
      step (next1 (.move (.grant 0)) (waiting 0x41#8 0x0000#16)) = .next t ∧
      rspOf 0 t = some ⟨true, .illegalOpcode, 0x0000#16, 0x0041#16⟩ ∧ rspWaits 0 (waiting 0x41#8 0x0000#16) = false :=
  ⟨_, by decide, rfl, rfl, by decide⟩
theorem witness_ResultGoesToItsCaller_kept :
    ∃ t, Coherent (next1 (.move .decode) (setRsp 1 ⟨true, .ok, 1#16, 0#16⟩ (replied ack1234))) ∧
      step (next1 (.move .decode) (setRsp 1 ⟨true, .ok, 1#16, 0#16⟩ (replied ack1234))) = .next t ∧
      rspWaits 1 (setRsp 1 ⟨true, .ok, 1#16, 0#16⟩ (replied ack1234)) = true ∧ rspWaits 1 t = true :=
  ⟨_, by decide, rfl, by decide, by decide⟩
theorem witness_SequencerEndsExpiredTransaction :
    (Coherent (next1 (.move (.read 1 .ok 0)) { reading with now := 120 }) ∧ reading.phase ≠ .idle ∧
      { reading with now := 120 }.deadline ≤ { reading with now := 120 }.now ∧
      sequencerEvent (next1 (.move (.read 1 .ok 0)) { reading with now := 120 }) = true) ∧
    (Coherent (next1 (.edge readyEdge) (replied nak05)) ∧
      sequencerEvent (next1 (.edge readyEdge) (replied nak05)) = true) :=
  ⟨⟨by decide, by decide, by decide, by decide⟩, ⟨by decide, by decide⟩⟩
theorem witness_StepKeepsTimely :
    ∃ t, Coherent (lateRead lateEvents) ∧ (lateRead lateEvents).cfg.ok ∧ Timely (lateRead lateEvents) ∧
      step (lateRead lateEvents) = .next t ∧ t.now = 129 :=
  ⟨_, by decide, by decide, by decide, rfl, rfl⟩
theorem witness_AbstractTransactionCompletes :
    ∃ t, Coherent (lateRead lateEvents) ∧ (lateRead lateEvents).cfg.ok ∧ Timely (lateRead lateEvents) ∧
      (lateRead lateEvents).phase ≠ .idle ∧ (lateRead lateEvents).cfg.tChWrite = some 3 ∧
      noResetIn 3 (lateRead lateEvents) = true ∧ runSteps 3 (lateRead lateEvents) = .next t ∧
      (lateRead lateEvents).deadline + max (lateRead lateEvents).cfg.tChRead 3 < t.now :=
  ⟨_, by decide, by decide, by decide, by decide, rfl, by decide, rfl, by decide⟩
theorem witness_ClockedTransactionCompletes :
    Coherent { reading with now := 119, script := [.edge readyEdge, .edge readyEdge] } ∧ reading.phase ≠ .idle ∧
    reading.deadline - 119 + 1 ≤ [Event.edge readyEdge, .edge readyEdge].length ∧
    (∀ e ∈ [Event.edge readyEdge, .edge readyEdge].take (reading.deadline - 119 + 1), isEdge e = true) := by decide
theorem witness_ClockedSuccessNeedsThirteenTicks :
    ∃ t, Coherent { sending with now := 120, script := [.edge readyEdge] } ∧
      { sending with now := 120, script := [.edge readyEdge] }.phase = .write ∧
      { sending with now := 120, script := [.edge readyEdge] }.txCnt = 0 ∧
      (∀ e ∈ [Event.edge readyEdge].take 1, isEdge e = true) ∧
      runSteps 1 { sending with now := 120, script := [.edge readyEdge] } = .next t ∧
      rspOf 0 t = some ⟨true, .timeout, 0x0000#16, 0x0000#16⟩ :=
  ⟨_, by decide, rfl, rfl, by decide, rfl, rfl⟩
theorem witness_ClockedSuccessInThirteenTicks :
    Coherent { sending with rxq := ack1234.toList ++ [], script := (List.replicate 13 readyEdge).map Event.edge ++ [] } ∧
    sending.phase = .write ∧ sending.txCnt = 0 ∧ 1 ≤ sending.cfg.maxXfer ∧ sending.now + 12 ≤ sending.deadline ∧
    (List.replicate 13 readyEdge).length = 13 ∧
    (∀ p ∈ List.replicate 13 readyEdge, p.rst = false ∧ p.txReady = true ∧ p.txErr = false ∧ p.rxValid = true ∧
      p.rxErr = false) := by decide
/-- A write waiting, its reply and one more byte in `RXQ`, and the four moves of its call to come. -/
def called : State :=
  { waiting 0x57#8 0x1234#16 with
    rxq := ack1234.toList ++ [0xAA#8]
    script := .move (.grant 0) :: .move (.write 6 .ok 19) :: .move (.read 6 .ok 2) :: .move .decode :: [] }

theorem witness_SendReturnsTheReply :
    called.isOpen = true ∧ called.phase = .idle ∧ pendOf 0 called = some ⟨true, 0x57#8, 0x1234#16⟩ ∧
    legalOpcode 0x57#8 = true ∧ 6 ≤ called.cfg.maxXfer ∧ 19 < called.cfg.tDeadline ∧
    called.rxq = ack1234.toList ++ [0xAA#8] ∧
    called.script =
      .move (.grant 0) :: .move (.write 6 .ok 19) :: .move (.read 6 .ok 2) :: .move .decode :: [] := by decide
theorem witness_TransmitPorts :
    ∃ t, Coherent (next1 (.edge { readyEdge with txErr := true }) sendingTwo) ∧ 1 ≤ sendingTwo.cfg.maxXfer ∧
      step (next1 (.edge { readyEdge with txErr := true }) sendingTwo) = .next t ∧ txValid false sendingTwo = true :=
  ⟨_, by decide, by decide, rfl, by decide⟩
theorem witness_TransmitPorts_ready :
    ∃ t, Coherent (next1 (.edge readyEdge) sending) ∧ step (next1 (.edge readyEdge) sending) = .next t ∧
      txValid readyEdge.rst sending = true ∧ readyEdge.txErr = false :=
  ⟨_, by decide, rfl, by decide, rfl⟩
theorem witness_ReceivePorts :
    ∃ t, Coherent (next1 (.edge readyEdge) reading) ∧ 1 ≤ reading.cfg.maxXfer ∧
      step (next1 (.edge readyEdge) reading) = .next t ∧ rxReady readyEdge.rst reading = true ∧
      reading.rxq = 0x06#8 :: [0x12#8, 0x34#8] :=
  ⟨_, by decide, by decide, rfl, by decide, rfl⟩
theorem witness_ReceivePorts_failed :
    ∃ t, Coherent (next1 (.edge { readyEdge with rxErr := true }) reading) ∧
      step (next1 (.edge { readyEdge with rxErr := true }) reading) = .next t ∧ rxReady false reading = true :=
  ⟨_, by decide, rfl, by decide⟩
theorem witness_CallerPorts :
    ∃ t, Coherent (next1 (.edge askingEdge) sending) ∧ askingEdge.rst = false ∧
      step (next1 (.edge askingEdge) sending) = .next t ∧
      askingEdge.req[1]? = some (some (0x57#8, 0x0001#16)) ∧ reqReady askingEdge.rst 1 sending = true ∧
      reqReady askingEdge.rst 0 sending = false ∧ waits 0 sending = false :=
  ⟨_, by decide, rfl, rfl, rfl, by decide, by decide, by decide⟩
theorem witness_CallerPorts_response :
    ∃ t, Coherent (next1 (.edge readyEdge) (setRsp 1 ⟨true, .ok, 1#16, 0#16⟩ sending)) ∧
      step (next1 (.edge readyEdge) (setRsp 1 ⟨true, .ok, 1#16, 0#16⟩ sending)) = .next t ∧
      rspValid readyEdge.rst 1 (setRsp 1 ⟨true, .ok, 1#16, 0#16⟩ sending) = true :=
  ⟨_, by decide, rfl, by decide⟩
theorem witness_ResetDropsTransaction :
    nextEvent (next1 (.edge { readyEdge with rst := true }) reading) = .edge { readyEdge with rst := true } ∧
    { readyEdge with rst := true }.rst = true :=
  ⟨rfl, rfl⟩
theorem witness_DisabledMovesChangeNothing :
    Quiescent base ∧ Settled base ∧ Quiescent { waiting 0x52#8 0x0010#16 with isOpen := false } := by decide

end Sys2Proof.Tests
end

section
/-!
A step taken apart (42_transaction_engine R186, R191): one move, an edge with `rst = 1`, or an edge with at most one move of
the core and then what the ports ask for.
-/

namespace Sys2Proof.Machine

/-- A move of the arbiter or of the sequencer (42_transaction_engine R168, R173, R174, R180). -/
def isCoreMove : Move → Bool
  | .grant _ => true
  | .write _ _ _ => true
  | .read _ _ _ => true
  | .decode => true
  | _ => false

theorem coreMove_cases (p : PortsIn) (s : State) :
    coreMove p s = [] ∨ ∃ m, isCoreMove m = true ∧ coreMove p s = [m] := by
  unfold coreMove
  cases s.phase with
  | idle =>
    cases (if s.isOpen then arbiter p.arb s else none) with
    | none => exact .inl rfl
    | some i => exact .inr ⟨.grant i, rfl, rfl⟩
  | write => exact .inr ⟨.write _ _ _, rfl, rfl⟩
  | read => exact .inr ⟨.read _ _ _, rfl, rfl⟩
  | decode => exact .inr ⟨.decode, rfl, rfl⟩

@[simp] theorem runMoves_singleton (m : Move) (s : State) : runMoves [m] s = runMove m s := by
  simp only [runMoves]
  cases runMove m s <;> rfl

/-- Everything a step can do: a move; a reset at an edge; or at an edge at most one move of the core, then the ports'. -/
theorem step_cases {s t : State} (h : step s = .next t) :
    (∃ m, nextEvent s = .move m ∧ runMove m (takeEvent s) = .next t) ∨
      (∃ p, nextEvent s = .edge p ∧ p.rst = true ∧ t = endEdge p (resetCore (takeEvent s))) ∨
      ∃ p u, nextEvent s = .edge p ∧ p.rst = false ∧
        (u = takeEvent s ∨ ∃ m, isCoreMove m = true ∧ runMove m (takeEvent s) = .next u) ∧
        t = endEdge p (afterMoves (portMoves p (takeEvent s)) u) := by
  unfold step at h
  cases he : nextEvent s with
  | move m =>
    rw [he] at h
    exact .inl ⟨m, rfl, h⟩
  | edge p =>
    rw [he] at h
    change clockEdge p (takeEvent s) = .next t at h
    cases hr : p.rst with
    | true =>
      rw [clockEdge_of_rst hr] at h
      cases h
      exact .inr (.inl ⟨p, rfl, hr, rfl⟩)
    | false =>
      rw [clockEdge_of_not_rst hr] at h
      obtain ⟨u, hu, h⟩ := andThen_eq_next.1 h
      cases h
      refine .inr (.inr ⟨p, u, rfl, hr, ?_, rfl⟩)
      obtain hm | ⟨m, hm, he⟩ := coreMove_cases p (takeEvent s)
      · rw [hm] at hu
        cases hu
        exact .inl rfl
      · rw [he, runMoves_singleton] at hu
        exact .inr ⟨m, hm, hu⟩

end Sys2Proof.Machine
end

section
/-!
The invariant `Coherent` (10_state R22): what keeps it, operation by operation, then move by move, and so every step.
-/

namespace Sys2Proof.Machine

/-! ### The invariant, restated -/

/-- `PortsOk` caller by caller, in the terms the latch lemmas speak of (42_transaction_engine R167). -/
theorem portsOk_iff (s : State) : PortsOk s ↔ ∀ i, waits i s = true → rspWaits i s = false := by
  simp only [PortsOk, List.mem_iff_getElem?, forall_exists_index, waits, rspWaits, pendOf, rspOf]
  rw [forall_comm]
  refine forall_congr' fun i => ?_
  cases s.callers[i]? <;> simp

/-- With the lock free only the counts, the ports and the number of callers are constrained. -/
theorem coherent_of_idle {s : State} (hi : s.phase = .idle) (hc : CountsOk s) (hp : PortsOk s) (hn : CallersOk s) :
    Coherent s :=
  ⟨hc, by simp [PhaseOk, hi], fun h => absurd hi h, fun h => absurd hi h, hp, hn⟩

/-- The invariant is about nine fields only. -/
theorem coherent_of_core {s t : State} (h : Coherent s)
    (ho : t.isOpen = s.isOpen := by simp) (hp : t.phase = s.phase := by simp) (hw : t.owner = s.owner := by simp)
    (hop : t.reqOp = s.reqOp := by simp) (hv : t.reqVal = s.reqVal := by simp) (hb : t.txBuf = s.txBuf := by simp)
    (htx : t.txCnt = s.txCnt := by simp) (hrx : t.rxCnt = s.rxCnt := by simp)
    (hc : t.callers = s.callers := by simp) : Coherent t := by
  simpa only [Coherent, CountsOk, PhaseOk, FrameOk, OwnerOk, PortsOk, CallersOk, waits_of_callers hc,
    rspWaits_of_callers hc, ho, hp, hw, hop, hv, hb, htx, hrx, hc] using h

/-- No latch is valid right after reset (10_state R33). -/
theorem valid_of_mem_callers_resetWith {cfg : Params} {n : Nat} {c : CallerPort}
    (h : c ∈ (State.resetWith cfg n).callers) : c.pend.valid = false ∧ c.rsp.valid = false := by
  rw [List.eq_of_mem_replicate h]
  exact ⟨rfl, rfl⟩

/-- Right after reset the lock is free, the counts are 0 and no latch is valid (10_state R33). -/
theorem coherent_resetWith (cfg : Params) {n : Nat} (hn : 1 ≤ n) : Coherent (State.resetWith cfg n) :=
  coherent_of_idle rfl ⟨Nat.zero_le _, Nat.zero_le _⟩ (fun _ hc _ => (valid_of_mem_callers_resetWith hc).2)
    (by simpa [CallersOk, State.resetWith] using hn)

/-! ### The callers' and the environment's operations -/

theorem coherent_takeEvent {s : State} (h : Coherent s) : Coherent (takeEvent s) := coherent_of_core h

theorem coherent_endEdge (p : PortsIn) {s : State} (h : Coherent s) : Coherent (endEdge p s) := coherent_of_core h

theorem coherent_resetCore {s : State} (h : Coherent s) : Coherent (resetCore s) := by
  obtain ⟨-, -, -, -, -, hn⟩ := h
  refine coherent_of_idle rfl ⟨Nat.zero_le _, Nat.zero_le _⟩ ?_ (by simpa [CallersOk] using hn)
  intro c hc _
  obtain ⟨i, -, rfl⟩ := List.mem_map.1 hc
  rfl

theorem coherent_openStep {s : State} (h : Coherent s) : Coherent (openStep s) := by
  unfold openStep
  split
  · exact h
  · obtain ⟨hc, hp, hf, ho, hr, hn⟩ := h
    exact ⟨hc, hp, hf, fun hi => ⟨rfl, (ho hi).2⟩, hr, hn⟩

/-- A request latched where no call is outstanding (42_transaction_engine R167). -/
theorem coherent_requestStep (i : Nat) (op : Byte) (val : Word) {s : State} (h : Coherent s) :
    Coherent (requestStep i op val s) := by
  obtain ⟨-, he⟩ | ⟨hm, he⟩ := requestStep_cases i op val s <;> rw [he]
  · exact h
  · obtain ⟨-, -, hfree, hrsp⟩ := (mayRequest_iff i s).1 hm
    obtain ⟨hc, hp, hf, ho, hr, hn⟩ := h
    refine ⟨hc, hp, hf, fun hi => ?_, (portsOk_iff _).2 fun j hj => ?_, by simpa [CallersOk] using hn⟩
    · obtain ⟨hopen, hown, hwait, hdeliv⟩ := ho hi
      have hne : i ≠ s.owner := by
        rintro rfl
        exact hi (by simpa [inFlight] using hfree)
      exact ⟨hopen, by simpa using hown, by simpa [waits_setPend, hne] using hwait, by simpa using hdeliv⟩
    · rw [rspWaits_setPend]
      by_cases hij : i = j
      · exact hij ▸ hrsp
      · exact (portsOk_iff s).1 hr j (by simpa [waits_setPend, hij] using hj)

theorem coherent_responseStep (i : Nat) {s : State} (h : Coherent s) : Coherent (responseStep i s) := by
  obtain ⟨-, he⟩ | ⟨r, -, -, he⟩ := responseStep_cases i s <;> rw [he]
  · exact h
  · have hle : ∀ j, rspWaits j s = false → rspWaits j (setRsp i { r with valid := false } s) = false := by
      intro j hj
      simp [rspWaits_setRsp, hj]
    obtain ⟨hc, hp, hf, ho, hr, hn⟩ := h
    refine ⟨hc, hp, hf, fun hi => ?_, (portsOk_iff _).2 fun j hj => ?_, by simpa [CallersOk] using hn⟩
    · obtain ⟨hopen, hown, hwait, hdeliv⟩ := ho hi
      exact ⟨hopen, by simpa using hown, by simpa using hwait, hle _ hdeliv⟩
    · exact hle j ((portsOk_iff s).1 hr j (by simpa using hj))

/-! ### The core's operations -/

/-- A completion delivers to a caller that has no other call outstanding, and frees the lock. -/
theorem coherent_of_complete {r : Result} {s t : State} (h : Coherent s) (hw : waits s.owner s = false)
    (hs : complete r s = .next t) : Coherent t := by
  obtain ⟨-, rfl⟩ := complete_eq_next hs
  obtain ⟨hc, -, -, -, hr, hn⟩ := h
  refine coherent_of_idle rfl hc ((portsOk_iff _).2 fun j hj => ?_) (by simpa [CallersOk] using hn)
  have hj' : waits j s = true := by
    rw [← waits_setRsp s.owner j { valid := true, status := r.status, value := r.value, info := r.info } s]
    exact hj
  have hne : s.owner ≠ j := by
    rintro rfl
    simp [hw] at hj'
  change rspWaits j (setRsp _ _ s) = false
  rw [rspWaits_setRsp, if_neg hne]
  exact (portsOk_iff s).1 hr j hj'

/-- The opening part of a grant with the lock free: the caller granted has neither a request nor a response left. -/
theorem coherent_latchRequest {i : Nat} {p : Pend} {s : State} (h : Coherent s) (hi : s.phase = .idle)
    (hw : waits i s = true) :
    Coherent (latchRequest i p s) ∧ waits i (latchRequest i p s) = false ∧ rspWaits i (latchRequest i p s) = false := by
  obtain ⟨hc, -, -, -, hr, hn⟩ := h
  have hr := (portsOk_iff s).1 hr
  have hwaits : ∀ j, waits j (latchRequest i p s) = if i = j then false else waits j s := by
    intro j
    rw [waits_of_callers (latchRequest_callers i p s), waits_setPend]
    simp
  have hrsp : ∀ j, rspWaits j (latchRequest i p s) = rspWaits j s := by
    intro j
    rw [rspWaits_of_callers (latchRequest_callers i p s), rspWaits_setPend]
  refine ⟨coherent_of_idle hi hc ((portsOk_iff _).2 fun j hj => ?_) (by simpa [CallersOk] using hn),
    by simp [hwaits], by rw [hrsp]; exact hr i hw⟩
  rw [hwaits] at hj
  split at hj
  · cases hj
  · rw [hrsp]; exact hr j hj

theorem coherent_startTransaction {op : Byte} {v : Word} {s : State} (h : Coherent s) (hl : legalOpcode op = true)
    (ho : s.isOpen = true) (hn : s.owner < s.callers.length) (hw : waits s.owner s = false)
    (hd : rspWaits s.owner s = false) : Coherent (startTransaction op v s) := by
  obtain ⟨-, -, -, -, hr, hn'⟩ := h
  exact ⟨⟨Nat.zero_le _, Nat.zero_le _⟩, by simp [PhaseOk], fun _ => ⟨hl, rfl⟩, fun _ => ⟨ho, hn, hw, hd⟩, hr, hn'⟩

theorem coherent_countSent {k : Nat} {s : State} (h : Coherent s) (hp : s.phase = .write) (hk : k ≤ 6 - s.txCnt) :
    Coherent (countSent k s) := by
  obtain ⟨⟨htx, hrx⟩, ⟨hwr, -, -⟩, hf, ho, hr, hn⟩ := h
  obtain ⟨htx', hrx'⟩ := hwr hp
  have hb : s.phase ≠ .idle := by simp [hp]
  refine ⟨⟨?_, hrx⟩, ?_, fun _ => hf hb, fun _ => ho hb, hr, hn⟩
  · simp [frameLen]; omega
  · by_cases h6 : s.txCnt + k = 6
    · simp [PhaseOk, frameLen, h6, hrx']
    · simp [PhaseOk, frameLen, h6, hp, hrx']; omega

theorem coherent_storeReply {r : List Byte} {s : State} (h : Coherent s) (hp : s.phase = .read)
    (hk : r.length ≤ 6 - s.rxCnt) : Coherent (storeReply r s) := by
  obtain ⟨⟨htx, hrx⟩, ⟨-, hrd, -⟩, hf, ho, hr, hn⟩ := h
  obtain ⟨htx', hrx'⟩ := hrd hp
  have hb : s.phase ≠ .idle := by simp [hp]
  refine ⟨⟨htx, ?_⟩, ?_, fun _ => hf hb, fun _ => ho hb, hr, hn⟩
  · simp [frameLen]; omega
  · by_cases h6 : s.rxCnt + r.length = 6
    · simp [PhaseOk, frameLen, h6, htx']
    · simp [PhaseOk, frameLen, h6, hp, htx']; omega

/-! ### The core's steps -/

theorem waits_owner_of_coherent {s : State} (h : Coherent s) (hp : s.phase ≠ .idle) : waits s.owner s = false := by
  obtain ⟨-, -, -, ho, -, -⟩ := h
  obtain ⟨-, -, hw, -⟩ := ho hp
  exact hw

theorem coherent_grantStep {i : Nat} {s t : State} (h : Coherent s) (hs : grantStep i s = .next t) : Coherent t := by
  obtain ⟨-, he⟩ | ⟨p, hg, -, -, hcase⟩ := grantStep_cases i s
  · cases he.symm.trans hs; exact h
  · obtain ⟨hopen, hidle, hw⟩ := (mayGrant_iff i s).1 hg
    obtain ⟨hlatch, hwait, hdeliv⟩ := coherent_latchRequest (p := p) h hidle hw
    obtain ⟨hl, he⟩ | ⟨-, he⟩ := hcase
    · cases he.symm.trans hs
      exact coherent_startTransaction hlatch hl hopen (by simpa using lt_of_waits hw) hwait hdeliv
    · exact coherent_of_complete hlatch hwait (he.symm.trans hs)

theorem coherent_writeStep {n dur : Nat} {err : Xfer} {s t : State} (h : Coherent s)
    (hs : writeStep n err dur s = .next t) : Coherent t := by
  have hch : Coherent (chWrite (writeCount n s) (writeDuration dur s) s) := coherent_of_core h
  obtain ⟨-, he⟩ | ⟨hp, -, he⟩ | ⟨hp, -, -, he⟩ | ⟨hp, -, -, he⟩ := writeStep_cases n err dur s
  · cases he.symm.trans hs; exact h
  · exact coherent_of_complete h (waits_owner_of_coherent h (by simp [hp])) (he.symm.trans hs)
  · exact coherent_of_complete hch (waits_owner_of_coherent hch (by simp [hp])) (he.symm.trans hs)
  · cases he.symm.trans hs
    exact coherent_countSent hch hp (writeCount_le n s)

theorem coherent_readStep {n dur : Nat} {err : Xfer} {s t : State} (h : Coherent s)
    (hs : readStep n err dur s = .next t) : Coherent t := by
  have hch : Coherent (chRead (readCount n s) (readDuration dur s) s) := coherent_of_core h
  obtain ⟨-, he⟩ | ⟨hp, -, he⟩ | ⟨hp, -, -, he⟩ | ⟨hp, -, -, he⟩ := readStep_cases n err dur s
  · cases he.symm.trans hs; exact h
  · exact coherent_of_complete h (waits_owner_of_coherent h (by simp [hp])) (he.symm.trans hs)
  · exact coherent_of_complete hch (waits_owner_of_coherent hch (by simp [hp])) (he.symm.trans hs)
  · cases he.symm.trans hs
    exact coherent_storeReply hch hp ((List.length_take_le _ _).trans (readCount_le_missing n s))

theorem coherent_decodeStep {s t : State} (h : Coherent s) (hs : decodeStep s = .next t) : Coherent t := by
  obtain ⟨-, he⟩ | ⟨hp, r, he, -⟩ := decodeStep_cases s
  · cases he.symm.trans hs; exact h
  · exact coherent_of_complete h (waits_owner_of_coherent h (by simp [hp])) (he.symm.trans hs)

/-! ### Every step -/

theorem coherent_runMove (m : Move) (s t : State) (h : Coherent s) (hs : runMove m s = .next t) : Coherent t := by
  cases m with
  | reset => cases hs; exact coherent_resetCore h
  | configure c => cases hs; exact coherent_of_core h
  | openChannel => cases hs; exact coherent_openStep h
  | request i op val => cases hs; exact coherent_requestStep i op val h
  | grant i => exact coherent_grantStep h hs
  | write n err dur => exact coherent_writeStep h hs
  | read n err dur => exact coherent_readStep h hs
  | decode => exact coherent_decodeStep h hs
  | response i => cases hs; exact coherent_responseStep i h
  | device bs => cases hs; exact coherent_of_core h
  | advance k => cases hs; exact coherent_of_core h

/-- Settles O38: every move keeps the invariant, and so do taking an event and the end of an edge. -/
theorem stepKeepsCoherent : Obligations.StepKeepsCoherent :=
  step_keeps (fun _ => coherent_takeEvent) coherent_runMove (fun p _ => coherent_endEdge p)

/-- Settles O37. -/
theorem coherentAtReset : Obligations.CoherentAtReset :=
  fun cfg _ hn => ⟨coherent_resetWith cfg hn, fun h => absurd rfl h⟩

end Sys2Proof.Machine
end

section
/-!
Data that no rule reads (10_state R22 (a), R23): two states that agree make the same step, move by move, and agree again.
-/

namespace Sys2Proof.Machine

/-- If the first outcome is a next state, so is the second, and the two agree. -/
def AgreeOut (o o' : Out) : Prop := ∀ s', o = .next s' → ∃ t', o' = .next t' ∧ Agree s' t'

theorem agreeOut_next {s t : State} (h : Agree s t) : AgreeOut (.next s) (.next t) := by
  rintro _ ⟨⟩
  exact ⟨t, rfl, h⟩

theorem agreeOut_andThen {o o' : Out} {f g : State → Out} (h : AgreeOut o o')
    (hf : ∀ u v, Agree u v → AgreeOut (f u) (g v)) : AgreeOut (andThen o f) (andThen o' g) := by
  intro s' hs
  obtain ⟨u, rfl, hu⟩ := andThen_eq_next.1 hs
  obtain ⟨v, rfl, hv⟩ := h u rfl
  exact hf u v hv s' hu

theorem agree_of_idle {s t : State} (hi : s.phase = .idle) (hv : SameVisible s t) : Agree s t :=
  ⟨hv, fun h => absurd hi h⟩

/-- A completion rests on the owner only, and frees the lock. -/
theorem agreeOut_complete (r : Result) {s t : State} (hv : SameVisible s t) (hw : s.owner = t.owner) :
    AgreeOut (complete r s) (complete r t) := by
  intro s' hs
  obtain ⟨hl, rfl⟩ := complete_eq_next hs
  obtain ⟨ho, -, hc, hrest⟩ := hv
  exact ⟨_, complete_of_lt r (by rw [← hw, ← hc]; exact hl), agree_of_idle rfl ⟨ho, rfl, by simp [hw, hc], hrest⟩⟩

/-! ### What agreeing states show -/

section
variable {s t : State} (h : Agree s t)
include h

theorem isOpen_of_agree : s.isOpen = t.isOpen := h.1.1

theorem phase_of_agree : s.phase = t.phase := by
  obtain ⟨⟨-, hp, -⟩, -⟩ := h
  exact hp

theorem callers_of_agree : t.callers = s.callers := by
  obtain ⟨⟨-, -, hc, -⟩, -⟩ := h
  exact hc.symm

theorem rxq_of_agree : s.rxq = t.rxq := by
  obtain ⟨⟨-, -, -, -, -, hq, -⟩, -⟩ := h
  exact hq

theorem cfg_of_agree : s.cfg = t.cfg := by
  obtain ⟨⟨-, -, -, -, -, -, hg, -⟩, -⟩ := h
  exact hg

theorem nextEvent_of_agree : nextEvent s = nextEvent t := by
  obtain ⟨⟨-, -, -, -, -, -, -, hs, hd⟩, -⟩ := h
  simp [nextEvent, hs, hd]

theorem pendOf_of_agree (i : Nat) : pendOf i s = pendOf i t := by
  simp [pendOf, callers_of_agree h]

theorem inFlight_of_agree (i : Nat) : inFlight i s = inFlight i t := by
  by_cases hb : s.phase = .idle
  · simp [inFlight, hb, ← phase_of_agree h]
  · obtain ⟨⟨-, hp, -⟩, hf⟩ := h
    obtain ⟨hw, -⟩ := hf hb
    simp [inFlight, hp, hw]

theorem mayRequest_of_agree (i : Nat) : mayRequest i s = mayRequest i t := by
  simp [mayRequest, inFlight_of_agree h, waits_of_callers (callers_of_agree h),
    rspWaits_of_callers (callers_of_agree h), callers_of_agree h]

theorem mayGrant_of_agree (i : Nat) : mayGrant i s = mayGrant i t := by
  obtain ⟨⟨ho, hp, hc, -⟩, -⟩ := h
  simp [mayGrant, ho, hp, waits_of_callers hc]

theorem writeDuration_of_agree (d : Nat) : writeDuration d s = writeDuration d t := by
  simp [writeDuration, cfg_of_agree h]

theorem readDuration_of_agree (d : Nat) : readDuration d s = readDuration d t := by
  simp [readDuration, cfg_of_agree h]

theorem coreMove_of_agree (p : PortsIn) : coreMove p s = coreMove p t := by
  obtain ⟨⟨ho, hp, hc, -⟩, -⟩ := h
  have hw : ∀ i, waits i s = waits i t := waits_of_callers hc
  simp [coreMove, arbiter, ho, hp, hc, hw]

theorem portMoves_of_agree (p : PortsIn) : portMoves p s = portMoves p t := by
  have hreq : requestMove p s = requestMove p t := by
    funext i
    simp [requestMove, reqReady, mayRequest_of_agree h]
  have hrsp : responseMove p s = responseMove p t := by
    funext i
    simp [responseMove, rspValid, rspWaits_of_callers (callers_of_agree h)]
  have hopen : openMove p s = openMove p t := by simp [openMove, isOpen_of_agree h]
  simp only [portMoves, hreq, hrsp, hopen, callers_of_agree h]

end

/-! ### What agreeing states show while a transaction is in flight -/

section
variable {s t : State} (h : Agree s t) (hb : s.phase ≠ .idle)
include h hb

theorem expired_of_agree : expired s = expired t := by
  obtain ⟨⟨-, -, -, hn, -⟩, hf⟩ := h
  obtain ⟨-, -, -, -, hdl, -⟩ := hf hb
  simp [expired, hn, hdl]

theorem offered_of_agree : offered s = offered t := by
  obtain ⟨-, htb, htx, -⟩ := h.2 hb
  simp [offered, htb, htx]

theorem writeCount_of_agree (n : Nat) : writeCount n s = writeCount n t := by
  simp [writeCount, offered_of_agree h hb, cfg_of_agree h]

theorem readCount_of_agree (n : Nat) : readCount n s = readCount n t := by
  obtain ⟨-, -, -, hrx, -⟩ := h.2 hb
  simp [readCount, missing, hrx, rxq_of_agree h, cfg_of_agree h]

end

theorem admittedTime_of_agree (k : Nat) {s t : State} (h : Agree s t) : admittedTime k s = admittedTime k t := by
  unfold admittedTime
  rw [← phase_of_agree h, cfg_of_agree h, ← writeDuration_of_agree h, ← readDuration_of_agree h]
  cases hp : s.phase with
  | idle => rfl
  | write => rw [expired_of_agree h (by simp [hp])]
  | read => rw [expired_of_agree h (by simp [hp])]
  | decode => rfl

/-! ### The environment's and the callers' operations -/

theorem agree_takeEvent {s t : State} (h : Agree s t) : Agree (takeEvent s) (takeEvent t) := by
  obtain ⟨⟨ho, hp, hc, hn, hw, hq, hg, hs, hd⟩, hf⟩ := h
  unfold takeEvent
  rw [← hs]
  split
  · exact ⟨⟨ho, hp, hc, hn, hw, hq, hg, rfl, hd⟩, hf⟩
  · exact ⟨⟨ho, hp, hc, hn, hw, hq, hg, rfl, congrArg (· + 1) hd⟩, hf⟩

theorem agree_advanceTime (k : Nat) {s t : State} (h : Agree s t) : Agree (advanceTime k s) (advanceTime k t) := by
  obtain ⟨⟨ho, hp, hc, hn, hrest⟩, hf⟩ := h
  exact ⟨⟨ho, hp, hc, congrArg (· + k) hn, hrest⟩, hf⟩

theorem agree_appendRxq (bs : List Byte) {s t : State} (h : Agree s t) : Agree (appendRxq bs s) (appendRxq bs t) := by
  obtain ⟨⟨ho, hp, hc, hn, hw, hq, hrest⟩, hf⟩ := h
  exact ⟨⟨ho, hp, hc, hn, hw, congrArg (· ++ bs) hq, hrest⟩, hf⟩

theorem agree_endEdge (p : PortsIn) {s t : State} (h : Agree s t) : Agree (endEdge p s) (endEdge p t) :=
  agree_advanceTime 1 (agree_appendRxq p.device h)

theorem agree_resetCore {s t : State} (h : Agree s t) : Agree (resetCore s) (resetCore t) := by
  obtain ⟨⟨-, -, hc, hn, hw, hq, hg, hs, hd⟩, -⟩ := h
  exact agree_of_idle rfl ⟨rfl, rfl, by simp [hc, hd], hn, hw, hq, hg, hs, congrArg (· + 1) hd⟩

theorem agree_openStep {s t : State} (h : Agree s t) : Agree (openStep s) (openStep t) := by
  unfold openStep
  rw [← isOpen_of_agree h]
  split
  · exact h
  · exact ⟨⟨rfl, h.1.2⟩, h.2⟩

theorem agree_configureStep (c : Params) {s t : State} (h : Agree s t) :
    Agree (configureStep c s) (configureStep c t) := by
  unfold configureStep
  rw [← isOpen_of_agree h]
  split
  · exact h
  · obtain ⟨⟨-, hp, hc, hn, hw, hq, -, hrest⟩, hf⟩ := h
    exact ⟨⟨rfl, hp, hc, hn, hw, hq, rfl, hrest⟩, hf⟩

theorem agree_setPend (i : Nat) (p : Pend) {s t : State} (h : Agree s t) : Agree (setPend i p s) (setPend i p t) := by
  obtain ⟨⟨ho, hp, hc, hrest⟩, hf⟩ := h
  exact ⟨⟨ho, hp, by simp [hc], hrest⟩, hf⟩

theorem agree_setRsp (i : Nat) (r : Rsp) {s t : State} (h : Agree s t) : Agree (setRsp i r s) (setRsp i r t) := by
  obtain ⟨⟨ho, hp, hc, hrest⟩, hf⟩ := h
  exact ⟨⟨ho, hp, by simp [hc], hrest⟩, hf⟩

theorem agree_requestStep (i : Nat) (op : Byte) (val : Word) {s t : State} (h : Agree s t) :
    Agree (requestStep i op val s) (requestStep i op val t) := by
  unfold requestStep
  rw [← mayRequest_of_agree h]
  split
  · exact agree_setPend i _ h
  · exact h

theorem agree_responseStep (i : Nat) {s t : State} (h : Agree s t) : Agree (responseStep i s) (responseStep i t) := by
  have hr : rspOf i t = rspOf i s := by simp [rspOf, callers_of_agree h]
  unfold responseStep
  rw [hr]
  split
  · split
    · exact agree_setRsp i _ h
    · exact h
  · exact h

theorem agree_portStep (m : Move) {s t : State} (h : Agree s t) : Agree (portStep m s) (portStep m t) := by
  cases m with
  | openChannel => exact agree_openStep h
  | request i op val => exact agree_requestStep i op val h
  | response i => exact agree_responseStep i h
  | _ => exact h

theorem agree_afterMoves (ms : List Move) {s t : State} (h : Agree s t) :
    Agree (afterMoves ms s) (afterMoves ms t) := by
  induction ms generalizing s t with
  | nil => exact h
  | cons m ms ih => exact ih (agree_portStep m h)

/-! ### The channel's operations -/

theorem agree_chWrite (k d : Nat) {s t : State} (h : Agree s t) (hb : s.phase ≠ .idle) :
    Agree (chWrite k d s) (chWrite k d t) := by
  have hoff := offered_of_agree h hb
  obtain ⟨⟨ho, hp, hc, hn, hw, hrest⟩, hf⟩ := h
  exact ⟨⟨ho, hp, hc, congrArg (· + d) hn, by simp [hw, hoff], hrest⟩, hf⟩

theorem agree_chRead (k d : Nat) {s t : State} (h : Agree s t) : Agree (chRead k d s) (chRead k d t) := by
  obtain ⟨⟨ho, hp, hc, hn, hw, hq, hrest⟩, hf⟩ := h
  exact ⟨⟨ho, hp, hc, congrArg (· + d) hn, hw, congrArg (List.drop k) hq, hrest⟩, hf⟩

theorem agree_countSent (k : Nat) {s t : State} (h : Agree s t) (hb : s.phase ≠ .idle) :
    Agree (countSent k s) (countSent k t) := by
  obtain ⟨⟨ho, hp, hrest⟩, hf⟩ := h
  obtain ⟨hw, htb, htx, hflight⟩ := hf hb
  exact ⟨⟨ho, by simp [htx, hp], hrest⟩, fun _ => ⟨hw, htb, congrArg (· + k) htx, hflight⟩⟩

/-- The bytes stored are read from now on, and they are the same on both sides. -/
theorem agree_storeReply (r : List Byte) {s t : State} (h : Agree s t) (hb : s.phase ≠ .idle)
    (hr : s.rxCnt + r.length ≤ 6) : Agree (storeReply r s) (storeReply r t) := by
  obtain ⟨⟨ho, hp, hrest⟩, hf⟩ := h
  obtain ⟨hw, htb, htx, hrx, hdl, hbuf⟩ := hf hb
  refine ⟨⟨ho, by simp [hrx, hp], hrest⟩, fun _ => ⟨hw, htb, htx, congrArg (· + r.length) hrx, hdl, fun j hj => ?_⟩⟩
  have hj' : j < s.rxCnt + r.length := hj
  rw [storeReply_rxBuf, storeReply_rxBuf, ← hrx, Frame.get_fill _ _ _ _ hr, Frame.get_fill _ _ _ _ hr]
  split
  · rfl
  · exact hbuf j (by omega)

/-! ### The core's steps -/

/-- A grant that is made, said once: the transaction starts, or the opcode is refused (42_transaction_engine R168, R169). -/
theorem grantStep_of_mayGrant {i : Nat} {p : Pend} {s : State} (hg : mayGrant i s = true) (hp : pendOf i s = some p) :
    grantStep i s =
      if legalOpcode p.op = true then .next (startTransaction p.op p.val (latchRequest i p s))
      else complete { status := .illegalOpcode, value := 0x0000#16, info := infoIllegalOpcode p.op }
        (latchRequest i p s) := by
  obtain ⟨hn, -⟩ | ⟨q, -, hq, -, hcase⟩ := grantStep_cases i s
  · simp [hg] at hn
  · cases hp.symm.trans hq
    obtain ⟨hl, he⟩ | ⟨hl, he⟩ := hcase <;> simp [he, hl]

theorem sameVisible_latchRequest (i : Nat) (p : Pend) {s t : State} (h : Agree s t) :
    SameVisible (latchRequest i p s) (latchRequest i p t) :=
  (agree_setPend i { p with valid := false } h).1

/-- A grant writes every data register that the transaction reads before it reads it. -/
theorem agree_startTransaction (i : Nat) (p : Pend) {s t : State} (h : Agree s t) :
    Agree (startTransaction p.op p.val (latchRequest i p s)) (startTransaction p.op p.val (latchRequest i p t)) := by
  obtain ⟨ho, -, hc, hn, hw, hq, hg, hs, hd⟩ := sameVisible_latchRequest i p h
  exact ⟨⟨ho, rfl, hc, hn, hw, hq, hg, hs, hd⟩,
    fun _ => ⟨rfl, rfl, rfl, rfl, congrArg₂ (fun n c => n + c.tDeadline) hn hg,
      fun j hj => absurd hj (Nat.not_lt_zero j)⟩⟩

theorem agreeOut_grantStep (i : Nat) {s t : State} (h : Agree s t) : AgreeOut (grantStep i s) (grantStep i t) := by
  by_cases hg : mayGrant i s = true
  · obtain ⟨-, -, hw⟩ := (mayGrant_iff i s).1 hg
    obtain ⟨p, hp, -⟩ := (waits_iff i s).1 hw
    rw [grantStep_of_mayGrant hg hp,
      grantStep_of_mayGrant ((mayGrant_of_agree h i).symm.trans hg) ((pendOf_of_agree h i).symm.trans hp)]
    split
    · exact agreeOut_next (agree_startTransaction i p h)
    · exact agreeOut_complete _ (sameVisible_latchRequest i p h) rfl
  · have hg' : ¬mayGrant i t = true := by rwa [← mayGrant_of_agree h]
    rw [grantStep, grantStep, if_neg hg, if_neg hg']
    exact agreeOut_next h

theorem agreeOut_writeStep (n : Nat) (err : Xfer) (dur : Nat) {s t : State} (h : Agree s t) :
    AgreeOut (writeStep n err dur s) (writeStep n err dur t) := by
  unfold writeStep
  rw [← phase_of_agree h]
  split
  case isFalse => exact agreeOut_next h
  case isTrue hp =>
    have hb : s.phase ≠ .idle := by simp [eq_of_beq hp]
    obtain ⟨hown, -, htx, -⟩ := h.2 hb
    rw [← expired_of_agree h hb, ← writeCount_of_agree h hb, ← writeDuration_of_agree h, ← htx]
    have hch := agree_chWrite (writeCount n s) (writeDuration dur s) h hb
    split
    · exact agreeOut_complete _ h.1 hown
    · cases err with
      | ok => exact agreeOut_next (agree_countSent _ hch hb)
      | fail => exact agreeOut_complete _ hch.1 hown

theorem agreeOut_readStep (n : Nat) (err : Xfer) (dur : Nat) {s t : State} (hk : PhaseOk s) (h : Agree s t) :
    AgreeOut (readStep n err dur s) (readStep n err dur t) := by
  unfold readStep
  rw [← phase_of_agree h]
  split
  case isFalse => exact agreeOut_next h
  case isTrue hp =>
    have hp : s.phase = .read := eq_of_beq hp
    have hb : s.phase ≠ .idle := by simp [hp]
    obtain ⟨hown, -, -, hrx, -⟩ := h.2 hb
    rw [← expired_of_agree h hb, ← readCount_of_agree h hb, ← readDuration_of_agree h, ← hrx, ← rxq_of_agree h]
    have hch := agree_chRead (readCount n s) (readDuration dur s) h
    split
    · exact agreeOut_complete _ h.1 hown
    · cases err with
      | ok =>
        refine agreeOut_next (agree_storeReply _ hch hb ?_)
        obtain ⟨-, hrd, -⟩ := hk
        have hcount := readCount_le_missing n s
        have hroom := (hrd hp).2
        simp
        omega
      | fail => exact agreeOut_complete _ hch.1 hown

/-- Two frame buffers that hold the same byte at each of the six offsets are the same. -/
theorem frame_eq_of_get {f g : Frame} (h : ∀ j, j < 6 → f.get j = g.get j) : f = g := by
  cases f
  cases g
  rw [Frame.mk.injEq]
  exact ⟨h 0 (by decide), h 1 (by decide), h 2 (by decide), h 3 (by decide), h 4 (by decide), h 5 (by decide)⟩

/-- In the decode phase all six reply bytes have been received, so the two buffers are the same. -/
theorem agreeOut_decodeStep {s t : State} (hk : PhaseOk s) (h : Agree s t) :
    AgreeOut (decodeStep s) (decodeStep t) := by
  obtain ⟨hp, he⟩ | ⟨hp, r, he, ht⟩ := decodeStep_cases s
  · have hp' : t.phase ≠ .decode := by rwa [← phase_of_agree h]
    have he' : decodeStep t = .next t := by simp [decodeStep, hp']
    rw [he, he']
    exact agreeOut_next h
  · obtain ⟨hown, -, -, -, -, hbuf⟩ := h.2 (by simp [hp])
    obtain ⟨-, -, hdec⟩ := hk
    have hrx : s.rxBuf = t.rxBuf := frame_eq_of_get fun j hj => hbuf j (by rw [(hdec hp).2]; exact hj)
    rw [he, ht t ((phase_of_agree h).symm.trans hp) hrx.symm]
    exact agreeOut_complete r h.1 hown

/-! ### Every step -/

theorem agreeOut_runMove (m : Move) {s t : State} (hk : PhaseOk s) (h : Agree s t) :
    AgreeOut (runMove m s) (runMove m t) := by
  cases m with
  | reset => exact agreeOut_next (agree_resetCore h)
  | configure c => exact agreeOut_next (agree_configureStep c h)
  | openChannel => exact agreeOut_next (agree_openStep h)
  | request i op val => exact agreeOut_next (agree_requestStep i op val h)
  | grant i => exact agreeOut_grantStep i h
  | write n err dur => exact agreeOut_writeStep n err dur h
  | read n err dur => exact agreeOut_readStep n err dur hk h
  | decode => exact agreeOut_decodeStep hk h
  | response i => exact agreeOut_next (agree_responseStep i h)
  | device bs => exact agreeOut_next (agree_appendRxq bs h)
  | advance k =>
    refine agreeOut_next ?_
    rw [← admittedTime_of_agree k h]
    exact agree_advanceTime _ h

theorem agreeOut_clockEdge (p : PortsIn) {s t : State} (hk : PhaseOk s) (h : Agree s t) :
    AgreeOut (clockEdge p s) (clockEdge p t) := by
  cases hr : p.rst with
  | true =>
    rw [clockEdge_of_rst hr, clockEdge_of_rst hr]
    exact agreeOut_next (agree_endEdge p (agree_resetCore h))
  | false =>
    rw [clockEdge_of_not_rst hr, clockEdge_of_not_rst hr, ← coreMove_of_agree h, ← portMoves_of_agree h]
    refine agreeOut_andThen ?_ fun u v huv => agreeOut_next (agree_endEdge p (agree_afterMoves _ huv))
    obtain hm | ⟨m, -, hm⟩ := coreMove_cases p s <;> rw [hm]
    · exact agreeOut_next h
    · simpa only [runMoves_singleton] using agreeOut_runMove m hk h

/-- Settles O48: agreeing states take the same event, and every move, so every edge, keeps their agreement. -/
theorem unwrittenDataNeverRead : Obligations.UnwrittenDataNeverRead := by
  intro s t s' _ hk h
  have hk' : PhaseOk (takeEvent s) := by simpa [PhaseOk] using hk
  have h' := agree_takeEvent h
  refine (?_ : AgreeOut (step s) (step t)) s'
  unfold step
  rw [← nextEvent_of_agree h]
  cases nextEvent s with
  | move m => exact agreeOut_runMove m hk' h'
  | edge p => exact agreeOut_clockEdge p hk' h'

end Sys2Proof.Machine
end

section
/-!
What a step leaves alone, or only takes from: `OPEN` and the configuration (10_state R27, R28), `RXQ` (10_state R31), and
the reset values (10_state R33).
-/

namespace Sys2Proof.Machine

/-- `q` is what is left of `RXQ` once a step has read from its head: at most the bytes still missing, in the read phase
only, and none once the deadline has passed (20_memory R73, 42_transaction_engine R171). -/
def LeftOfRxq (s : State) (q : List Byte) : Prop :=
  ∃ k, k ≤ 6 - s.rxCnt ∧ k ≤ s.rxq.length ∧ q = s.rxq.drop k ∧ (s.phase ≠ .read → k = 0) ∧ (s.deadline ≤ s.now → k = 0)

theorem leftOfRxq_self (s : State) : LeftOfRxq s s.rxq := ⟨0, by simp⟩

theorem leftOfRxq_drop_readCount (n : Nat) {s : State} (hp : s.phase = .read) (hd : s.now < s.deadline) :
    LeftOfRxq s (s.rxq.drop (readCount n s)) :=
  ⟨readCount n s, readCount_le_missing n s, readCount_le_rxq n s, rfl, fun h => absurd hp h, fun h => by omega⟩

@[simp] theorem leftOfRxq_takeEvent (s : State) (q : List Byte) : LeftOfRxq (takeEvent s) q ↔ LeftOfRxq s q := by
  simp [LeftOfRxq]

/-- The bytes the device appends in a move (20_memory R75). -/
def bytesOfMove : Move → List Byte
  | .device bs => bs
  | _ => []

theorem bytesOfMove_of_isCoreMove {m : Move} (h : isCoreMove m = true) : bytesOfMove m = [] := by
  cases m with
  | device bs => cases h
  | _ => rfl

theorem deviceBytesNext_of_move {s : State} {m : Move} (h : nextEvent s = .move m) :
    deviceBytesNext s = bytesOfMove m := by
  unfold deviceBytesNext
  rw [h]
  cases m <;> rfl

theorem deviceBytesNext_of_edge {s : State} {p : PortsIn} (h : nextEvent s = .edge p) :
    deviceBytesNext s = p.device := by
  simp only [deviceBytesNext, h]

/-! ### The core's moves -/

/-- `OPEN` and the configuration are left alone, and `RXQ` is only read from. -/
abbrev CoreFrame (s t : State) : Prop := t.isOpen = s.isOpen ∧ t.cfg = s.cfg ∧ LeftOfRxq s t.rxq

theorem coreFrame_complete {r : Result} {s u t : State} (hr : complete r u = .next t) (h : CoreFrame s u) :
    CoreFrame s t := by
  obtain ⟨-, rfl⟩ := complete_eq_next hr
  exact h

/-- A move of the core, completions included, leaves `OPEN` and the configuration alone and only reads from `RXQ`. -/
theorem coreFrame_of_isCoreMove {m : Move} {s t : State} (hm : isCoreMove m = true) (h : runMove m s = .next t) :
    CoreFrame s t := by
  have hself := leftOfRxq_self s
  cases m with
  | grant i =>
    obtain ⟨-, he⟩ | ⟨p, -, -, -, ⟨-, he⟩ | ⟨-, he⟩⟩ := grantStep_cases i s
    · cases he.symm.trans h; exact ⟨rfl, rfl, hself⟩
    · cases he.symm.trans h; exact ⟨rfl, rfl, hself⟩
    · exact coreFrame_complete (he.symm.trans h) ⟨rfl, rfl, hself⟩
  | write n err dur =>
    obtain ⟨-, he⟩ | ⟨-, -, he⟩ | ⟨-, -, -, he⟩ | ⟨-, -, -, he⟩ := writeStep_cases n err dur s
    · cases he.symm.trans h; exact ⟨rfl, rfl, hself⟩
    · exact coreFrame_complete (he.symm.trans h) ⟨rfl, rfl, hself⟩
    · exact coreFrame_complete (he.symm.trans h) ⟨rfl, rfl, hself⟩
    · cases he.symm.trans h; exact ⟨rfl, rfl, hself⟩
  | read n err dur =>
    obtain ⟨-, he⟩ | ⟨-, -, he⟩ | ⟨hp, hd, -, he⟩ | ⟨hp, hd, -, he⟩ := readStep_cases n err dur s
    · cases he.symm.trans h; exact ⟨rfl, rfl, hself⟩
    · exact coreFrame_complete (he.symm.trans h) ⟨rfl, rfl, hself⟩
    · exact coreFrame_complete (he.symm.trans h) ⟨rfl, rfl, leftOfRxq_drop_readCount n hp hd⟩
    · cases he.symm.trans h; exact ⟨rfl, rfl, leftOfRxq_drop_readCount n hp hd⟩
  | decode =>
    obtain ⟨-, he⟩ | ⟨-, r, he, -⟩ := decodeStep_cases s
    · cases he.symm.trans h; exact ⟨rfl, rfl, hself⟩
    · exact coreFrame_complete (he.symm.trans h) ⟨rfl, rfl, hself⟩
  | _ => cases hm

/-! ### Open until a reset -/

theorem openStep_of_isOpen {s : State} (h : s.isOpen = true) : openStep s = s := if_pos h

theorem configureStep_of_isOpen (c : Params) {s : State} (h : s.isOpen = true) : configureStep c s = s := if_pos h

theorem runMove_keeps_open {m : Move} {s t : State} (ho : s.isOpen = true) (hm : m ≠ .reset)
    (h : runMove m s = .next t) : t.isOpen = true ∧ t.cfg = s.cfg := by
  by_cases hc : isCoreMove m = true
  · obtain ⟨ho', hg, -⟩ := coreFrame_of_isCoreMove hc h
    exact ⟨ho'.trans ho, hg⟩
  · cases m with
    | reset => exact absurd rfl hm
    | configure c => cases h; rw [configureStep_of_isOpen c ho]; exact ⟨ho, rfl⟩
    | openChannel => cases h; rw [openStep_of_isOpen ho]; exact ⟨ho, rfl⟩
    | request i op val => cases h; simp [ho]
    | response i => cases h; simp [ho]
    | device bs => cases h; exact ⟨ho, rfl⟩
    | advance k => cases h; exact ⟨ho, rfl⟩
    | _ => exact absurd rfl hc

theorem portStep_isOpen {s : State} (h : s.isOpen = true) (m : Move) : (portStep m s).isOpen = true := by
  cases m with
  | openChannel => simpa only [portStep, openStep_of_isOpen h] using h
  | request i op val => simpa only [portStep, requestStep_isOpen] using h
  | response i => simpa only [portStep, responseStep_isOpen] using h
  | _ => exact h

theorem afterMoves_isOpen (ms : List Move) {s : State} (h : s.isOpen = true) : (afterMoves ms s).isOpen = true := by
  induction ms generalizing s with
  | nil => exact h
  | cons m ms ih => exact ih (portStep_isOpen h m)

theorem resetEvent_of_edge {s : State} {p : PortsIn} (h : nextEvent s = .edge p) : resetEvent s = p.rst := by
  simp only [resetEvent, h]

theorem ne_reset_of_resetEvent {s : State} {m : Move} (h : nextEvent s = .move m) (hr : resetEvent s = false) :
    m ≠ .reset := by
  rintro rfl
  simp [resetEvent, h] at hr

/-- Settles O42: of the moves only `open`, a configuration and a reset write these fields, and the first two do so with
`OPEN = 0` only. -/
theorem openUntilReset : Obligations.OpenUntilReset := by
  intro s t ho hr h
  have ho' : (takeEvent s).isOpen = true := by simpa using ho
  obtain ⟨m, hm, h⟩ | ⟨p, hp, hrst, -⟩ | ⟨p, u, -, -, hu, rfl⟩ := step_cases h
  · simpa using runMove_keeps_open ho' (ne_reset_of_resetEvent hm hr) h
  · rw [resetEvent_of_edge hp, hrst] at hr
    cases hr
  · have hopen : u.isOpen = true ∧ u.cfg = s.cfg := by
      obtain rfl | ⟨m, hm, hu⟩ := hu
      · simpa using ho
      · obtain ⟨hu, hg, -⟩ := coreFrame_of_isCoreMove hm hu
        exact ⟨hu.trans ho', by simpa using hg⟩
    exact ⟨afterMoves_isOpen _ hopen.1, by simpa using hopen.2⟩

/-! ### The receive queue -/

theorem runMove_leftOfRxq {m : Move} {s t : State} (h : runMove m s = .next t) :
    ∃ q, LeftOfRxq s q ∧ t.rxq = q ++ bytesOfMove m := by
  by_cases hc : isCoreMove m = true
  · obtain ⟨-, -, hq⟩ := coreFrame_of_isCoreMove hc h
    exact ⟨_, hq, by simp [bytesOfMove_of_isCoreMove hc]⟩
  · refine ⟨_, leftOfRxq_self s, ?_⟩
    cases m with
    | device bs => cases h; rfl
    | grant _ | write _ _ _ | read _ _ _ | decode => exact absurd rfl hc
    | _ => cases h; simp [bytesOfMove]

theorem step_leftOfRxq {s t : State} (h : step s = .next t) :
    ∃ q, LeftOfRxq s q ∧ t.rxq = q ++ deviceBytesNext s := by
  obtain ⟨m, hm, h⟩ | ⟨p, hp, -, rfl⟩ | ⟨p, u, hp, -, hu, rfl⟩ := step_cases h
  · rw [deviceBytesNext_of_move hm]
    simpa using runMove_leftOfRxq h
  · rw [deviceBytesNext_of_edge hp]
    exact ⟨_, leftOfRxq_self s, by simp⟩
  · rw [deviceBytesNext_of_edge hp]
    refine ⟨u.rxq, ?_, by simp⟩
    obtain rfl | ⟨m, hm, hu⟩ := hu
    · simpa using leftOfRxq_self s
    · obtain ⟨-, -, hq⟩ := coreFrame_of_isCoreMove hm hu
      simpa using hq

/-- Settles O46: only a read attempt takes from `RXQ`, and what the device sends comes after what is left. -/
theorem receiveQueueNeverFlushed : Obligations.ReceiveQueueNeverFlushed := by
  intro s t h
  obtain ⟨q, ⟨k, hmissing, hlength, rfl, hphase, hexpired⟩, ht⟩ := step_leftOfRxq h
  exact ⟨k, hmissing, hlength, ht, hphase, hexpired⟩

/-- Settles O33: each element with a reset value is written with it, the latches of every port alike. -/
theorem resetState : Obligations.ResetState := by
  intro cfg n
  exact ⟨rfl, rfl, rfl, rfl, rfl, List.length_replicate, fun _ => valid_of_mem_callers_resetWith, rfl⟩

end Sys2Proof.Machine
end

section
/-!
An edge of the clock taken apart with the core's move named (42_transaction_engine R186), the request that a move grants
(R168), and what a completion writes and leaves alone (R181).
-/

namespace Sys2Proof.Machine

/-! ### Completion -/

section
variable {r : Result} {s t : State} (h : complete r s = .next t)
include h

theorem phase_of_complete : t.phase = .idle := by
  obtain ⟨-, rfl⟩ := complete_eq_next h
  rfl

theorem wireTx_of_complete : t.wireTx = s.wireTx := by
  obtain ⟨-, rfl⟩ := complete_eq_next h
  rfl

theorem now_of_complete : t.now = s.now := by
  obtain ⟨-, rfl⟩ := complete_eq_next h
  rfl

end

/-! ### Taking an event shows nothing to the arbiter and the sequencer -/

@[simp] theorem pendOf_takeEvent (i : Nat) (s : State) : pendOf i (takeEvent s) = pendOf i s := by
  simp [pendOf]

@[simp] theorem waits_takeEvent (i : Nat) (s : State) : waits i (takeEvent s) = waits i s :=
  waits_of_callers (takeEvent_callers s) i

@[simp] theorem mayGrant_takeEvent (i : Nat) (s : State) : mayGrant i (takeEvent s) = mayGrant i s := by
  simp [mayGrant]

@[simp] theorem coreMove_takeEvent (p : PortsIn) (s : State) : coreMove p (takeEvent s) = coreMove p s := by
  simp [coreMove, arbiter]

/-! ### Edges -/

/-- `u` is what the core's step of an edge makes of `s`: `s` itself where there is none. -/
def CoreStepOfEdge (p : PortsIn) (s u : State) : Prop :=
  (coreMove p s = [] ∧ u = takeEvent s) ∨ ∃ m, coreMove p s = [m] ∧ runMove m (takeEvent s) = .next u

/-- An edge with `rst = 0`: the core's step, what the ports ask for, the end of the edge. -/
theorem step_of_edge {p : PortsIn} {s t : State} (he : nextEvent s = .edge p) (hr : p.rst = false)
    (h : step s = .next t) :
    ∃ u, CoreStepOfEdge p s u ∧ t = endEdge p (afterMoves (portMoves p (takeEvent s)) u) := by
  have h : clockEdge p (takeEvent s) = .next t := by simpa only [step, he, runEvent] using h
  rw [clockEdge_of_not_rst hr, coreMove_takeEvent] at h
  obtain ⟨u, hu, h⟩ := andThen_eq_next.1 h
  cases h
  refine ⟨u, ?_, rfl⟩
  obtain hm | ⟨m, -, hm⟩ := coreMove_cases p s <;> rw [hm] at hu
  · cases hu
    exact .inl ⟨hm, rfl⟩
  · exact .inr ⟨m, hm, by rwa [runMoves_singleton] at hu⟩

/-- An edge with `rst = 1`: the reset and the end of the edge. -/
theorem step_of_rst {p : PortsIn} {s t : State} (he : nextEvent s = .edge p) (hr : p.rst = true)
    (h : step s = .next t) : t = endEdge p (resetCore (takeEvent s)) := by
  have h : clockEdge p (takeEvent s) = .next t := by simpa only [step, he, runEvent] using h
  rw [clockEdge_of_rst hr] at h
  cases h
  rfl

theorem step_of_move {m : Move} {s t : State} (he : nextEvent s = .move m) (h : step s = .next t) :
    runMove m (takeEvent s) = .next t := by
  simpa only [step, he, runEvent] using h

/-! ### The request granted -/

/-- The request a move grants, if it is a grant that is enabled (42_transaction_engine R168). -/
def grantedBy (m : Move) (s : State) : Option (Byte × Word) :=
  match m with
  | .grant i => if mayGrant i s then (pendOf i s).map (fun p => (p.op, p.val)) else none
  | _ => none

@[simp] theorem grantedBy_takeEvent (m : Move) (s : State) : grantedBy m (takeEvent s) = grantedBy m s := by
  cases m <;> simp [grantedBy]

theorem grantedNext_of_move {m : Move} {s : State} (he : nextEvent s = .move m) : grantedNext s = grantedBy m s := by
  unfold grantedNext
  rw [he]
  cases m <;> rfl

theorem grantedNext_of_rst {p : PortsIn} {s : State} (he : nextEvent s = .edge p) (hr : p.rst = true) :
    grantedNext s = none := by
  simp [grantedNext, he, hr]

/-- What the arbiter picks at an edge is granted by the core's move of that edge. -/
theorem grantedNext_of_edge {p : PortsIn} {s : State} (he : nextEvent s = .edge p) (hr : p.rst = false) :
    grantedNext s = (coreMove p s).head?.bind (fun m => grantedBy m s) := by
  unfold grantedNext coreMove
  rw [he]
  cases hp : s.phase with
  | idle =>
    cases ho : s.isOpen with
    | false => simp
    | true =>
      cases ha : arbiter p.arb s with
      | none => simp [ha]
      | some i =>
        have hg : mayGrant i s = true := (mayGrant_iff i s).2 ⟨ho, hp, waits_of_arbiter ha⟩
        simp [hr, ha, grantedBy, hg]
  | write => simp [grantedBy]
  | read => simp [grantedBy]
  | decode => simp [grantedBy]

end Sys2Proof.Machine
end

section
/-!
The transmit stream (20_memory R70): what a step adds to `WIRE_TX`, and the history of a run as one piece for each grant.
-/

namespace Sys2Proof.Machine

/-! ### What a step adds to the stream -/

/-- No grant is made: `WIRE_TX` gets the next `k` bytes of the frame in flight, in the write phase before the deadline only
(42_transaction_engine R171, R175), and if a transaction is in flight afterwards it is the same one, with `k` more bytes
counted. -/
def Continues (s t : State) : Prop :=
  ∃ k, k ≤ 6 - s.txCnt ∧ t.wireTx = s.wireTx ++ (offered s).take k ∧ (s.phase ≠ .write → k = 0) ∧
    (s.deadline ≤ s.now → k = 0) ∧
    (t.phase ≠ .idle → s.phase ≠ .idle ∧ t.txCnt = s.txCnt + k ∧ t.reqOp = s.reqOp ∧ t.reqVal = s.reqVal)

/-- The request `r` is granted: nothing is sent yet, and if a transaction is in flight afterwards it is that of `r`
(42_transaction_engine R168, R169). -/
def Begins (r : Byte × Word) (s t : State) : Prop :=
  s.phase = .idle ∧ t.wireTx = s.wireTx ∧ (t.phase ≠ .idle → t.txCnt = 0 ∧ t.reqOp = r.1 ∧ t.reqVal = r.2)

/-- What a step that grants `g` does to the transmit stream. -/
def Transmits : Option (Byte × Word) → State → State → Prop
  | none => Continues
  | some r => Begins r

/-- The lock is free afterwards and nothing is sent. -/
theorem continues_of_idle {s t : State} (hi : t.phase = .idle) (hw : t.wireTx = s.wireTx := by simp) :
    Continues s t :=
  ⟨0, by simp, by simp [hw], fun _ => rfl, fun _ => rfl, fun h => absurd hi h⟩

/-- Nothing is sent and the transaction, if there is one, goes on. -/
theorem continues_of_core {s t : State} (hw : t.wireTx = s.wireTx := by simp) (hp : t.phase = s.phase := by simp)
    (hc : t.txCnt = s.txCnt := by simp) (ho : t.reqOp = s.reqOp := by simp) (hv : t.reqVal = s.reqVal := by simp) :
    Continues s t :=
  ⟨0, by simp, by simp [hw], fun _ => rfl, fun _ => rfl, fun h => ⟨hp ▸ h, hc, ho, hv⟩⟩

/-- Taking the event before and the ports' part of an edge after do not touch the stream. -/
theorem transmits_of_core {g : Option (Byte × Word)} {s u t : State} (h : Transmits g (takeEvent s) u)
    (hw : t.wireTx = u.wireTx := by simp) (hp : t.phase = u.phase := by simp) (hc : t.txCnt = u.txCnt := by simp)
    (ho : t.reqOp = u.reqOp := by simp) (hv : t.reqVal = u.reqVal := by simp) : Transmits g s t := by
  cases g <;> simpa [Transmits, Continues, Begins, offered, hw, hp, hc, ho, hv] using h

/-! ### Move by move -/

theorem continues_of_complete {r : Result} {s t : State} (h : complete r s = .next t) : Continues s t :=
  continues_of_idle (phase_of_complete h) (wireTx_of_complete h)

theorem transmits_grantStep {i : Nat} {s t : State} (h : grantStep i s = .next t) :
    Transmits (grantedBy (.grant i) s) s t := by
  obtain ⟨hg, he⟩ | ⟨p, hg, hp, -, hcase⟩ := grantStep_cases i s
  · cases he.symm.trans h
    have hgr : grantedBy (.grant i) s = none := by simp [grantedBy, hg]
    rw [hgr]
    exact continues_of_core
  · obtain ⟨-, hidle, -⟩ := (mayGrant_iff i s).1 hg
    have hgr : grantedBy (.grant i) s = some (p.op, p.val) := by simp [grantedBy, hg, hp]
    rw [hgr]
    obtain ⟨-, he⟩ | ⟨-, he⟩ := hcase
    · cases he.symm.trans h
      exact ⟨hidle, rfl, fun _ => ⟨rfl, rfl, rfl⟩⟩
    · have h := he.symm.trans h
      exact ⟨hidle, (wireTx_of_complete h :), fun hb => absurd (phase_of_complete h) hb⟩

theorem continues_writeStep {n dur : Nat} {err : Xfer} {s t : State} (h : writeStep n err dur s = .next t) :
    Continues s t := by
  obtain ⟨-, he⟩ | ⟨-, -, he⟩ | ⟨hp, hd, -, he⟩ | ⟨hp, hd, -, he⟩ := writeStep_cases n err dur s
  · cases he.symm.trans h
    exact continues_of_core
  · exact continues_of_complete (he.symm.trans h)
  · have h := he.symm.trans h
    exact ⟨writeCount n s, writeCount_le n s, wireTx_of_complete h, fun hn => absurd hp hn, fun hn => by omega,
      fun hb => absurd (phase_of_complete h) hb⟩
  · cases he.symm.trans h
    exact ⟨writeCount n s, writeCount_le n s, rfl, fun hn => absurd hp hn, fun hn => by omega,
      fun _ => ⟨by simp [hp], rfl, rfl, rfl⟩⟩

theorem continues_readStep {n dur : Nat} {err : Xfer} {s t : State} (h : readStep n err dur s = .next t) :
    Continues s t := by
  obtain ⟨-, he⟩ | ⟨-, -, he⟩ | ⟨-, -, -, he⟩ | ⟨hp, -, -, he⟩ := readStep_cases n err dur s
  · cases he.symm.trans h
    exact continues_of_core
  · exact continues_of_complete (he.symm.trans h)
  · have h := he.symm.trans h
    exact continues_of_idle (phase_of_complete h) (wireTx_of_complete h :)
  · cases he.symm.trans h
    exact ⟨0, by simp, by simp, fun _ => rfl, fun _ => rfl, fun _ => ⟨by simp [hp], rfl, rfl, rfl⟩⟩

theorem continues_decodeStep {s t : State} (h : decodeStep s = .next t) : Continues s t := by
  obtain ⟨-, he⟩ | ⟨-, r, he, -⟩ := decodeStep_cases s
  · cases he.symm.trans h
    exact continues_of_core
  · exact continues_of_complete (he.symm.trans h)

theorem transmits_runMove {m : Move} {s t : State} (h : runMove m s = .next t) : Transmits (grantedBy m s) s t := by
  cases m with
  | grant i => exact transmits_grantStep h
  | write n err dur => exact continues_writeStep h
  | read n err dur => exact continues_readStep h
  | decode => exact continues_decodeStep h
  | reset => cases h; exact continues_of_idle rfl
  | configure c => cases h; exact continues_of_core
  | openChannel => cases h; exact continues_of_core
  | request i op val => cases h; exact continues_of_core
  | response i => cases h; exact continues_of_core
  | device bs => cases h; exact continues_of_core
  | advance k => cases h; exact continues_of_core

/-- Every step, an edge of the clock included, grants at most one request and sends at most the next bytes of the frame in
flight. -/
theorem step_transmits {s t : State} (h : step s = .next t) : Transmits (grantedNext s) s t := by
  cases he : nextEvent s with
  | move m =>
    rw [grantedNext_of_move he, ← grantedBy_takeEvent]
    exact transmits_of_core (transmits_runMove (step_of_move he h)) rfl rfl rfl rfl rfl
  | edge p =>
    cases hr : p.rst with
    | true =>
      obtain rfl := step_of_rst he hr h
      rw [grantedNext_of_rst he hr]
      exact continues_of_idle (by simp)
    | false =>
      obtain ⟨u, hu, rfl⟩ := step_of_edge he hr h
      rw [grantedNext_of_edge he hr]
      obtain ⟨hm, rfl⟩ | ⟨m, hm, hu⟩ := hu
      · rw [hm]
        exact continues_of_core
      · have hg : (coreMove p s).head?.bind (fun m => grantedBy m s) = grantedBy m (takeEvent s) := by simp [hm]
        rw [hg]
        exact transmits_of_core (transmits_runMove hu)

/-! ### Pieces -/

theorem pieces_append {log log' : List (Byte × Word)} {ks ks' : List Nat} (h : log.length = ks.length) :
    pieces (log ++ log') (ks ++ ks') = pieces log ks ++ pieces log' ks' := by
  simp [pieces, List.zipWith_append h]

@[simp] theorem pieces_singleton (r : Byte × Word) (k : Nat) : pieces [r] [k] = piece r k := by
  simp [pieces]

@[simp] theorem piece_zero (r : Byte × Word) : piece r 0 = [] := by
  simp [piece]

/-- While a transaction is in flight, its piece grows by what it offers (10_state R22 (e)). -/
theorem piece_add {s : State} (hf : FrameOk s) (hb : s.phase ≠ .idle) (k : Nat) :
    piece (s.reqOp, s.reqVal) (s.txCnt + k) = piece (s.reqOp, s.reqVal) s.txCnt ++ (offered s).take k := by
  obtain ⟨hl, htx⟩ := hf hb
  simp [piece, hl, offered, htx, List.take_add]

/-! ### The history of a run -/

/-- Since `WIRE_TX` was `w`, the requests of `log` were granted and the stream grew by one piece for each, with the counts
`ks`; the transaction in flight is the last of them, and its piece is what has been counted. -/
structure Serialised (w : List Byte) (log : List (Byte × Word)) (ks : List Nat) (s : State) : Prop where
  length_eq : log.length = ks.length
  le_six : ∀ n ∈ ks, n ≤ 6
  wireTx_eq : s.wireTx = w ++ pieces log ks
  current : s.phase ≠ .idle → ∃ log' ks', log = log' ++ [(s.reqOp, s.reqVal)] ∧ ks = ks' ++ [s.txCnt]

theorem serialised_nil {s : State} (hi : s.phase = .idle) : Serialised s.wireTx [] [] s :=
  ⟨rfl, by simp, by simp [pieces], fun h => absurd hi h⟩

/-- A grant opens a piece, empty so far. -/
theorem serialised_of_begins {w : List Byte} {log : List (Byte × Word)} {ks : List Nat} {r : Byte × Word}
    {s t : State} (hs : Serialised w log ks s) (h : Begins r s t) : Serialised w (log ++ [r]) (ks ++ [0]) t := by
  obtain ⟨hlen, hle, hwire, -⟩ := hs
  obtain ⟨-, hw, hf⟩ := h
  refine ⟨by simp [hlen], by simpa [or_imp, forall_and] using hle, by simp [hw, hwire, pieces_append hlen],
    fun hb => ?_⟩
  obtain ⟨htx, ho, hv⟩ := hf hb
  exact ⟨log, ks, by rw [ho, hv], by rw [htx]⟩

/-- A step without a grant lengthens the last piece, or leaves the stream alone with the lock free. -/
theorem serialised_of_continues {w : List Byte} {log : List (Byte × Word)} {ks : List Nat} {s t : State}
    (hc : Coherent s) (hs : Serialised w log ks s) (h : Continues s t) : ∃ ks', Serialised w log ks' t := by
  obtain ⟨hlen, hle, hwire, hflight⟩ := hs
  obtain ⟨k, hk, hw, hwrite, -, hf⟩ := h
  by_cases hb : s.phase = .idle
  · obtain rfl := hwrite (by simp [hb])
    refine ⟨ks, hlen, hle, by simpa [hwire] using hw, fun ht => absurd hb (hf ht).1⟩
  · obtain ⟨log, ks, rfl, rfl⟩ := hflight hb
    have hlen : log.length = ks.length := by simpa using hlen
    obtain ⟨⟨htx, -⟩, -, hframe, -⟩ := hc
    have hcount : s.txCnt + k ≤ 6 := Nat.add_le_of_le_sub' htx hk
    have hle : ∀ n ∈ ks, n ≤ 6 := fun n hn => hle n (by simp [hn])
    refine ⟨ks ++ [s.txCnt + k], by simp [hlen], by simpa [or_imp, forall_and, hcount] using hle, ?_, fun ht => ?_⟩
    · rw [hw, hwire, pieces_append hlen, pieces_append hlen, pieces_singleton, pieces_singleton, piece_add hframe hb]
      simp only [List.append_assoc]
    · obtain ⟨-, hcount, ho, hv⟩ := hf ht
      exact ⟨log, ks, by rw [ho, hv], by rw [hcount]⟩

/-- A step extends the history by the request it grants, if it grants one. -/
theorem serialised_step {w : List Byte} {log : List (Byte × Word)} {ks : List Nat} {s t : State} (hc : Coherent s)
    (hs : Serialised w log ks s) (h : step s = .next t) :
    ∃ ks', Serialised w (log ++ (grantedNext s).toList) ks' t := by
  have ht := step_transmits h
  cases hg : grantedNext s with
  | none =>
    rw [hg] at ht
    simpa using serialised_of_continues hc hs ht
  | some r =>
    rw [hg] at ht
    exact ⟨ks ++ [0], serialised_of_begins hs ht⟩

/-- By induction on the steps: a run extends the history by its grants, and keeps the invariant. -/
theorem serialised_runSteps (k : Nat) {w : List Byte} {log : List (Byte × Word)} {ks : List Nat} {s t : State}
    (hc : Coherent s) (hs : Serialised w log ks s) (h : runSteps k s = .next t) :
    Coherent t ∧ ∃ ks', Serialised w (log ++ grants k s) ks' t := by
  induction k generalizing log ks s with
  | zero =>
    cases h
    exact ⟨hc, ks, by simpa [grants] using hs⟩
  | succ k ih =>
    obtain ⟨u, hu, h⟩ := andThen_eq_next.1 h
    obtain ⟨ks', hs'⟩ := serialised_step hc hs hu
    simpa only [grants, hu, List.append_assoc] using ih (stepKeepsCoherent s u hc hu) hs' h

/-- Settles O44: the history of a run from an idle state has one piece for each grant, and the last is that of the transaction
in flight. -/
theorem wireIsSerialised : Obligations.WireIsSerialised := by
  intro s t k hc hi h
  obtain ⟨⟨-, ⟨-, hread, hdecode⟩, -⟩, ks, hlen, hle, hwire, hflight⟩ :=
    serialised_runSteps k hc (serialised_nil hi) h
  have hlast : t.phase ≠ .idle → ks.getLast? = some t.txCnt := by
    intro hb
    obtain ⟨-, ks', -, rfl⟩ := hflight hb
    simp
  refine ⟨ks, hlen.symm, hle, hwire, fun hp => hlast (by simp [hp]), ?_⟩
  rintro (hp | hp)
  · rw [hlast (by simp [hp]), (hread hp).1]
  · rw [hlast (by simp [hp]), (hdecode hp).1]

end Sys2Proof.Machine
end

section
/-!
The receive stream (20_memory R64, R65, R73): the reply bytes stored so far, followed by `RXQ`.
-/

namespace Sys2Proof.Machine

/-! ### Frame buffers as lists -/

theorem Frame.toList_set (f : Frame) (i : Nat) (b : Byte) : (f.set i b).toList = f.toList.set i b := by
  match i with
  | 0 | 1 | 2 | 3 | 4 | 5 => rfl
  | _ + 6 => rfl

/-- Bytes stored behind the first `start` of a frame buffer extend them. -/
theorem Frame.take_toList_fill (f : Frame) (start : Nat) (r : List Byte) (h : start + r.length ≤ 6) :
    (f.fill start r).toList.take (start + r.length) = f.toList.take start ++ r := by
  induction r generalizing f start with
  | nil => simp [Frame.fill]
  | cons b bs ih =>
    simp only [List.length_cons] at h ⊢
    have hset : (f.toList.set start b).take (start + 1) = f.toList.take start ++ [b] := by
      rw [List.take_add_one, List.take_set_of_le (Nat.le_refl _), List.getElem?_set_self (by simp; omega)]
      rfl
    rw [Frame.fill, show start + (bs.length + 1) = start + 1 + bs.length by omega, ih _ _ (by omega),
      Frame.toList_set, hset]
    simp

/-! ### The stream move by move -/

/-- The reply bytes stored so far, followed by those still to be read. -/
def replyStream (s : State) : List Byte := s.rxBuf.toList.take s.rxCnt ++ s.rxq

/-- The stream is about three fields only. -/
theorem replyStream_of_core {s t : State} (hb : t.rxBuf = s.rxBuf := by simp) (hc : t.rxCnt = s.rxCnt := by simp)
    (hq : t.rxq = s.rxq := by simp) : replyStream t = replyStream s := by
  simp only [replyStream, hb, hc, hq]

@[simp] theorem replyStream_takeEvent (s : State) : replyStream (takeEvent s) = replyStream s := replyStream_of_core

@[simp] theorem replyStream_afterMoves (ms : List Move) (s : State) : replyStream (afterMoves ms s) = replyStream s :=
  replyStream_of_core

@[simp] theorem replyStream_appendRxq (bs : List Byte) (s : State) :
    replyStream (appendRxq bs s) = replyStream s ++ bs := by
  simp [replyStream]

@[simp] theorem replyStream_endEdge (p : PortsIn) (s : State) :
    replyStream (endEdge p s) = replyStream s ++ p.device := by
  simp [replyStream]

/-- The bytes a read attempt takes from the head of `RXQ` are those it stores (42_transaction_engine R174, R176). -/
theorem replyStream_storeReply_chRead {k d : Nat} {s : State} (hk : k ≤ s.rxq.length) (h : s.rxCnt + k ≤ 6) :
    replyStream (storeReply (s.rxq.take k) (chRead k d s)) = replyStream s := by
  have hlen : (s.rxq.take k).length = k := by simp [hk]
  have hfill := Frame.take_toList_fill s.rxBuf s.rxCnt (s.rxq.take k) (by rwa [hlen])
  calc
    _ = (s.rxBuf.fill s.rxCnt (s.rxq.take k)).toList.take (s.rxCnt + (s.rxq.take k).length) ++ s.rxq.drop k := rfl
    _ = s.rxBuf.toList.take s.rxCnt ++ (s.rxq.take k ++ s.rxq.drop k) := by rw [hfill, List.append_assoc]
    _ = replyStream s := by rw [List.take_append_drop]; rfl

theorem replyStream_readStep {n dur : Nat} {err : Xfer} {s t : State} (hr : s.rxCnt ≤ 6) (ht : t.phase ≠ .idle)
    (h : readStep n err dur s = .next t) : replyStream t = replyStream s := by
  obtain ⟨-, he⟩ | ⟨-, -, he⟩ | ⟨-, -, -, he⟩ | ⟨-, -, -, he⟩ := readStep_cases n err dur s
  · cases he.symm.trans h
    rfl
  · exact absurd (phase_of_complete (he.symm.trans h)) ht
  · exact absurd (phase_of_complete (he.symm.trans h)) ht
  · cases he.symm.trans h
    have hmissing := readCount_le_missing n s
    exact replyStream_storeReply_chRead (readCount_le_rxq n s) (by omega)

/-- In the read phase the core's other moves are not enabled (42_transaction_engine R172). -/
theorem runMove_of_read {m : Move} {s : State} (hp : s.phase = .read) (hm : isCoreMove m = true)
    (hr : ∀ n err dur, m ≠ .read n err dur) : runMove m s = .next s := by
  cases m with
  | grant i => simp [runMove, grantStep, mayGrant, hp]
  | write n err dur => simp [runMove, writeStep, hp]
  | read n err dur => exact absurd rfl (hr n err dur)
  | decode => simp [runMove, decodeStep, hp]
  | _ => cases hm

/-- In the read phase every move that does not end the transaction keeps the stream, but for what the device appends. -/
theorem replyStream_runMove {m : Move} {s t : State} (hp : s.phase = .read) (hr : s.rxCnt ≤ 6)
    (ht : t.phase ≠ .idle) (h : runMove m s = .next t) : replyStream t = replyStream s ++ bytesOfMove m := by
  cases m with
  | device bs => cases h; exact replyStream_appendRxq bs s
  | reset => cases h; exact absurd rfl ht
  | read n err dur => exact (replyStream_readStep hr ht h).trans (List.append_nil _).symm
  | grant _ | write _ _ _ | decode =>
    rw [runMove_of_read hp rfl (by simp)] at h
    cases h
    exact (List.append_nil _).symm
  | _ => cases h; exact (replyStream_of_core (s := s)).trans (List.append_nil _).symm

/-- Settles O45: of the moves in the read phase only a read attempt and the device touch the stream. -/
theorem replyBytesKeepOrder : Obligations.ReplyBytesKeepOrder := by
  rintro s t ⟨⟨-, hr⟩, -⟩ hp h ht
  have hr : (takeEvent s).rxCnt ≤ 6 := (takeEvent_rxCnt s).trans_le hr
  have hp : (takeEvent s).phase = .read := (takeEvent_phase s).trans hp
  change replyStream t = replyStream s ++ deviceBytesNext s
  obtain ⟨m, hm, h⟩ | ⟨p, -, -, rfl⟩ | ⟨p, u, he, -, hu, rfl⟩ := step_cases h
  · rw [deviceBytesNext_of_move hm, replyStream_runMove hp hr ht h, replyStream_takeEvent]
  · simp at ht
  · rw [deviceBytesNext_of_edge he, replyStream_endEdge, replyStream_afterMoves]
    obtain rfl | ⟨m, hm, hu⟩ := hu
    · rw [replyStream_takeEvent]
    · rw [replyStream_runMove hp hr (by simpa using ht) hu, bytesOfMove_of_isCoreMove hm, replyStream_takeEvent,
        List.append_nil]

end Sys2Proof.Machine
end

section
/-!
Time (20_memory R76, 42_transaction_engine R186): how far a move takes `NOW`.
-/

namespace Sys2Proof.Machine

/-- The duration or the advance a move carries, before it is cut. -/
def drawnTime : Move → Nat
  | .write _ _ dur => dur
  | .read _ _ dur => dur
  | .advance k => k
  | _ => 0

theorem writeDuration_le_draw (d : Nat) (s : State) : writeDuration d s ≤ d := by
  unfold writeDuration
  split <;> simp

/-- `NOW` is between what it was and that plus `d`. -/
def NowWithin (d : Nat) (s t : State) : Prop := s.now ≤ t.now ∧ t.now ≤ s.now + d

theorem nowWithin_of_eq {d : Nat} {s t : State} (h : t.now = s.now := by simp) : NowWithin d s t :=
  ⟨h.ge, by omega⟩

theorem nowWithin_of_add {k d : Nat} {s t : State} (hk : k ≤ d) (h : t.now = s.now + k := by simp) :
    NowWithin d s t :=
  ⟨by omega, by omega⟩

/-- No move takes `NOW` back, nor further than the time it carries. -/
theorem nowWithin_runMove {m : Move} {s t : State} (h : runMove m s = .next t) : NowWithin (drawnTime m) s t := by
  cases m with
  | grant i =>
    obtain ⟨-, he⟩ | ⟨p, -, -, -, ⟨-, he⟩ | ⟨-, he⟩⟩ := grantStep_cases i s
    · cases he.symm.trans h; exact nowWithin_of_eq
    · cases he.symm.trans h; exact nowWithin_of_eq
    · exact nowWithin_of_eq (now_of_complete (he.symm.trans h) :)
  | write n err dur =>
    have hd := writeDuration_le_draw dur s
    obtain ⟨-, he⟩ | ⟨-, -, he⟩ | ⟨-, -, -, he⟩ | ⟨-, -, -, he⟩ := writeStep_cases n err dur s
    · cases he.symm.trans h; exact nowWithin_of_eq
    · exact nowWithin_of_eq (now_of_complete (he.symm.trans h))
    · exact nowWithin_of_add hd (now_of_complete (he.symm.trans h))
    · cases he.symm.trans h; exact nowWithin_of_add hd
  | read n err dur =>
    have hd : readDuration dur s ≤ dur := Nat.min_le_left _ _
    obtain ⟨-, he⟩ | ⟨-, -, he⟩ | ⟨-, -, -, he⟩ | ⟨-, -, -, he⟩ := readStep_cases n err dur s
    · cases he.symm.trans h; exact nowWithin_of_eq
    · exact nowWithin_of_eq (now_of_complete (he.symm.trans h))
    · exact nowWithin_of_add hd (now_of_complete (he.symm.trans h))
    · cases he.symm.trans h; exact nowWithin_of_add hd
  | decode =>
    obtain ⟨-, he⟩ | ⟨-, r, he, -⟩ := decodeStep_cases s
    · cases he.symm.trans h; exact nowWithin_of_eq
    · exact nowWithin_of_eq (now_of_complete (he.symm.trans h))
  | advance k => cases h; exact nowWithin_of_add (admittedTime_le k s).1
  | _ => cases h; exact nowWithin_of_eq

/-- The core's move at an edge carries no time: its tick is the edge's own (42_transaction_engine R186). -/
theorem drawnTime_of_coreMove {m : Move} {p : PortsIn} {s : State} (h : coreMove p s = [m]) : drawnTime m = 0 := by
  unfold coreMove at h
  split at h
  case h_1 =>
    split at h
    · cases h; rfl
    · cases h
  all_goals
    cases h
    rfl

theorem now_of_coreStepOfEdge {p : PortsIn} {s u : State} (h : CoreStepOfEdge p s u) : u.now = s.now := by
  obtain ⟨-, rfl⟩ | ⟨m, hm, h⟩ := h
  · exact takeEvent_now s
  · obtain ⟨hge, hle⟩ := nowWithin_runMove h
    rw [drawnTime_of_coreMove hm, takeEvent_now] at hle
    rw [takeEvent_now] at hge
    omega

/-- An edge of the clock, with `rst = 1` too, is one tick. -/
theorem now_of_edge {p : PortsIn} {s t : State} (he : nextEvent s = .edge p) (h : step s = .next t) :
    t.now = s.now + 1 := by
  cases hr : p.rst with
  | true =>
    obtain rfl := step_of_rst he hr h
    simp
  | false =>
    obtain ⟨u, hu, rfl⟩ := step_of_edge he hr h
    simp [now_of_coreStepOfEdge hu]

/-- Settles O47: no move takes `NOW` back, and at an edge only the tick adds to it. -/
theorem timeNeverDecreases : Obligations.TimeNeverDecreases := by
  intro s t h
  refine ⟨?_, fun p he => now_of_edge he h⟩
  cases he : nextEvent s with
  | move m => simpa using (nowWithin_runMove (step_of_move he h)).1
  | edge p => rw [now_of_edge he h]; exact Nat.le_succ _

end Sys2Proof.Machine
end

section
/-!
The draws of the channel (20_memory R68, R72 to R74) and the moves of the device and of time (R75, R76).
-/

namespace Sys2Proof.Machine

/-! ### Draws -/

/-- Cutting a draw to a bound gives exactly what is within the bound. -/
theorem exists_min_eq_iff (b k : Nat) : (∃ n, min n b = k) ↔ k ≤ b :=
  ⟨fun ⟨n, hn⟩ => hn ▸ Nat.min_le_right n b, fun h => ⟨k, Nat.min_eq_left h⟩⟩

theorem exists_writeDuration_eq_iff (s : State) (k : Nat) :
    (∃ d, writeDuration d s = k) ↔ ∀ b, s.cfg.tChWrite = some b → k ≤ b := by
  unfold writeDuration
  cases s.cfg.tChWrite with
  | none => simp
  | some b => simpa using exists_min_eq_iff b k

/-- Settles O35: every draw of the channel is cut to a bound, and a bound of minima is all of theirs. -/
theorem channelDrawsExactlyAdmitted : Obligations.ChannelDrawsExactlyAdmitted := by
  intro s k
  refine ⟨?_, ?_, exists_min_eq_iff _ k, exists_writeDuration_eq_iff s k⟩
  · simpa [writeCount] using exists_min_eq_iff (min (offered s).length s.cfg.maxXfer) k
  · simpa [readCount, missing, frameLen] using exists_min_eq_iff (min (missing s) (min s.cfg.maxXfer s.rxq.length)) k

/-! ### An attempt that moves nothing -/

theorem expired_of_lt {s : State} (h : s.now < s.deadline) : expired s = false := by simp [expired, h]

theorem expired_of_le {s : State} (h : s.deadline ≤ s.now) : expired s = true := by simp [expired, h]

@[simp] theorem advanceTime_zero (s : State) : advanceTime 0 s = s := rfl

@[simp] theorem chWrite_zero (d : Nat) (s : State) : chWrite 0 d s = advanceTime d s := by
  simp [chWrite, advanceTime]

@[simp] theorem chRead_zero (d : Nat) (s : State) : chRead 0 d s = advanceTime d s := rfl

theorem countSent_zero {s : State} (h : s.txCnt ≠ 6) : countSent 0 s = s := by
  simp [countSent, frameLen, h]

theorem storeReply_nil {s : State} (h : s.rxCnt ≠ 6) : storeReply [] s = s := by
  simp [storeReply, frameLen, h, Frame.fill]

/-- A write attempt that moves nothing only takes time (42_transaction_engine R177). -/
theorem writeStep_zero (k : Nat) {s : State} (hp : s.phase = .write) (hd : s.now < s.deadline) (hc : s.txCnt ≠ 6) :
    writeStep 0 .ok k s = .next (advanceTime (writeDuration k s) s) := by
  have hcount : writeCount 0 s = 0 := Nat.zero_min _
  simp [writeStep, hp, expired_of_lt hd, hcount, countSent_zero (s := advanceTime _ s) hc]

/-- A read attempt that moves nothing only takes time (42_transaction_engine R177). -/
theorem readStep_zero (k : Nat) {s : State} (hp : s.phase = .read) (hd : s.now < s.deadline) (hc : s.rxCnt ≠ 6) :
    readStep 0 .ok k s = .next (advanceTime (readDuration k s) s) := by
  have hcount : readCount 0 s = 0 := Nat.zero_min _
  simp [readStep, hp, expired_of_lt hd, hcount, storeReply_nil (s := advanceTime _ s) hc]

/-! ### How far `NOW` may advance, by phase -/

theorem runMove_advance {k n : Nat} {s : State} (h : admittedTime k s = n) :
    runMove (.advance k) s = .next (advanceTime n s) := by
  rw [← h]; rfl

theorem admittedTime_of_idle (k : Nat) {s : State} (hp : s.phase = .idle) : admittedTime k s = k := by
  simp [admittedTime, hp]

theorem admittedTime_of_write (k : Nat) {s : State} (hp : s.phase = .write) (hd : s.now < s.deadline) :
    admittedTime k s = writeDuration k s := by
  cases hw : s.cfg.tChWrite <;> simp [admittedTime, writeDuration, hp, hw, expired_of_lt hd]

theorem admittedTime_of_unbounded_write (k : Nat) {s : State} (hp : s.phase = .write) (hw : s.cfg.tChWrite = none) :
    admittedTime k s = k := by
  simp [admittedTime, hp, hw]

theorem admittedTime_of_expired_write (k : Nat) {s : State} (hp : s.phase = .write)
    (hw : s.cfg.tChWrite.isSome = true) (hd : s.deadline ≤ s.now) : admittedTime k s = 0 := by
  obtain ⟨b, hw⟩ := Option.isSome_iff_exists.1 hw
  simp [admittedTime, hp, hw, expired_of_le hd]

theorem admittedTime_of_read (k : Nat) {s : State} (hp : s.phase = .read) (hd : s.now < s.deadline) :
    admittedTime k s = readDuration k s := by
  simp [admittedTime, hp, expired_of_lt hd]

theorem admittedTime_of_expired_read (k : Nat) {s : State} (hp : s.phase = .read) (hd : s.deadline ≤ s.now) :
    admittedTime k s = 0 := by
  simp [admittedTime, hp, expired_of_le hd]

theorem admittedTime_of_decode (k : Nat) {s : State} (hp : s.phase = .decode) : admittedTime k s = 0 := by
  simp [admittedTime, hp]

/-- Settles O36: an advance adds what the phase admits, and an attempt that moves nothing adds its duration. -/
theorem deviceAndTimeMoves : Obligations.DeviceAndTimeMoves := by
  refine ⟨fun _ _ => rfl, fun s k => ⟨?_, ?_, ?_, ?_, ?_, ?_, ?_⟩⟩
  · exact fun hp => runMove_advance (admittedTime_of_idle k hp)
  · intro hp hd hc
    rw [writeStep_zero k hp hd hc]
    exact runMove_advance (admittedTime_of_write k hp hd)
  · exact fun hp hw => runMove_advance (admittedTime_of_unbounded_write k hp hw)
  · exact fun hp hw hd => runMove_advance (admittedTime_of_expired_write k hp hw hd)
  · intro hp hd hc
    rw [readStep_zero k hp hd hc]
    exact runMove_advance (admittedTime_of_read k hp hd)
  · exact fun hp hd => runMove_advance (admittedTime_of_expired_read k hp hd)
  · exact fun hp => runMove_advance (admittedTime_of_decode k hp)

end Sys2Proof.Machine
end

section
/-!
The decoders accept exactly what the encoder writes, format by format (30_encoding R91 to R93, R100, R104); a request frame
read as a reply.
-/

namespace Sys2Proof

/-! ### Request frames -/

/-- The request an opcode and a value make is encoded as the frame built from the two (30_encoding R91). -/
theorem encode_of_decodeRequest {op : Byte} {v : Word} {i : Instr} (h : decodeRequest op v = some i) :
    i.kind = .request ∧ i.wellFormed = true ∧ encode i = (buildFrame op v).toList := by
  obtain ⟨rfl, rfl⟩ | ⟨rfl, rfl⟩ | ⟨rfl, rfl⟩ := (decodeRequest_eq_some_iff op v i).1 h <;> exact ⟨rfl, rfl, rfl⟩

theorem legalOpcode_of_decodeRequest {op : Byte} {v : Word} {i : Instr} (h : decodeRequest op v = some i) :
    legalOpcode op = true := by
  by_contra hl
  rw [(decodeRequest_eq_none_iff op v).2 (Bool.eq_false_of_not_eq_true hl)] at h
  cases h

theorem decodeRequestFrame_eq_ok_iff (bs : List Byte) (i : Instr) :
    decodeRequestFrame bs = .ok i ↔ ∃ op v, bs = (buildFrame op v).toList ∧ decodeRequest op v = some i := by
  constructor
  · intro h
    unfold decodeRequestFrame at h
    split at h
    · cases h
    · next b1 b2 b3 hs =>
      have hbs : bs = (frameWith b1 b2 b3).toList := (structuralCheck_eq_ok_iff bs b1 b2 b3).1 hs
      split at h
      · next hd =>
        cases h
        exact ⟨b1, join16 b2 b3, by simpa [buildFrame] using hbs, hd⟩
      · cases h
  · rintro ⟨op, v, rfl, hd⟩
    simp [decodeRequestFrame, buildFrame, hd]

theorem encode_of_decodeRequestFrame {bs : List Byte} {i : Instr} (h : decodeRequestFrame bs = .ok i) :
    i.kind = .request ∧ i.wellFormed = true ∧ encode i = bs := by
  obtain ⟨op, v, rfl, hd⟩ := (decodeRequestFrame_eq_ok_iff bs i).1 h
  exact encode_of_decodeRequest hd

theorem decodeRequestFrame_encode {i : Instr} (hk : i.kind = .request) : decodeRequestFrame (encode i) = .ok i := by
  refine (decodeRequestFrame_eq_ok_iff _ i).2 ?_
  cases i with
  | command v => exact ⟨opCommand, v, rfl, rfl⟩
  | write v => exact ⟨opWrite, v, rfl, rfl⟩
  | read v => exact ⟨opRead, v, rfl, rfl⟩
  | _ => cases hk

/-! ### Response frames -/

/-- A frame with the right markers and checksum is judged as a response by its type alone (30_encoding R92). -/
theorem decodeResponse_frameWith (b1 b2 b3 : Byte) :
    decodeResponse (frameWith b1 b2 b3).toList =
      if b1 = typeAck then .ok (.ack (join16 b2 b3))
      else if b1 = typeNak then .ok (.nak b2 b3)
      else .error (.respType b1) := by
  simp [decodeResponse]

theorem encode_of_decodeResponse {bs : List Byte} {i : Instr} (h : decodeResponse bs = .ok i) :
    i.kind = .response ∧ i.wellFormed = true ∧ encode i = bs := by
  obtain ⟨b2, b3, rfl, rfl⟩ | ⟨b2, b3, rfl, rfl⟩ := Machine.decodeResponse_eq_ok h
  · exact ⟨rfl, rfl, by simp [encode]⟩
  · exact ⟨rfl, rfl, rfl⟩

theorem decodeResponse_encode {i : Instr} (hk : i.kind = .response) : decodeResponse (encode i) = .ok i := by
  cases i with
  | ack v => simp [encode, decodeResponse_frameWith]
  | nak code reserved => exact decodeResponse_frameWith typeNak code reserved
  | _ => cases hk

/-! ### Device error codes -/

theorem isNamedCode_iff (c : Byte) :
    isNamedCode c = true ↔ c = 0x02#8 ∨ c = 0x04#8 ∨ c = 0x05#8 ∨ c = 0x06#8 ∨ c = 0x07#8 := by
  simp [isNamedCode, or_assoc]

/-- The default row (30_encoding R104). -/
theorem decodeErrCode_of_not_named {c : Byte} (h : isNamedCode c = false) : decodeErrCode c = .errUnknown c := by
  rw [← Bool.not_eq_true, isNamedCode_iff] at h
  simp only [not_or] at h
  simp [decodeErrCode, h]

theorem encode_decodeErrCode (c : Byte) :
    (decodeErrCode c).kind = .errCode ∧ (decodeErrCode c).wellFormed = true ∧ encode (decodeErrCode c) = [c] := by
  cases hn : isNamedCode c with
  | true => obtain rfl | rfl | rfl | rfl | rfl := (isNamedCode_iff c).1 hn <;> exact ⟨rfl, rfl, rfl⟩
  | false =>
    rw [decodeErrCode_of_not_named hn]
    exact ⟨rfl, by simp [Instr.wellFormed, hn], rfl⟩

/-- A code is one byte: no other length is accepted. -/
theorem encode_of_decode_errCode {bs : List Byte} {i : Instr} (h : decode .errCode bs = .ok i) :
    i.kind = .errCode ∧ i.wellFormed = true ∧ encode i = bs := by
  match bs with
  | [c] => cases h; exact encode_decodeErrCode c
  | [] => cases h
  | _ :: _ :: _ => cases h

theorem decode_errCode_encode {i : Instr} (hk : i.kind = .errCode) (hw : i.wellFormed = true) :
    decode .errCode (encode i) = .ok i := by
  cases i with
  | command v => cases hk
  | write v => cases hk
  | read v => cases hk
  | ack v => cases hk
  | nak code reserved => cases hk
  | errUnknown code => exact congrArg Except.ok (decodeErrCode_of_not_named (by simpa [Instr.wellFormed] using hw))
  | _ => rfl

/-! ### Every format -/

/-- A decoder accepts exactly the encodings of the well-formed instructions of its format, each as that instruction. -/
theorem decode_eq_ok_iff (k : Kind) (bs : List Byte) (i : Instr) :
    decode k bs = .ok i ↔ i.kind = k ∧ i.wellFormed = true ∧ encode i = bs := by
  cases k with
  | request => exact ⟨encode_of_decodeRequestFrame, fun ⟨hk, _, he⟩ => he ▸ decodeRequestFrame_encode hk⟩
  | response => exact ⟨encode_of_decodeResponse, fun ⟨hk, _, he⟩ => he ▸ decodeResponse_encode hk⟩
  | errCode => exact ⟨encode_of_decode_errCode, fun ⟨hk, hw, he⟩ => he ▸ decode_errCode_encode hk hw⟩

/-- Settles O3: an instruction's encoding is accepted by the decoder of its own format. -/
theorem decodeOfEncode : Obligations.DecodeOfEncode :=
  fun i hw => (decode_eq_ok_iff i.kind (encode i) i).2 ⟨rfl, hw, rfl⟩

/-- Settles O4: a decoder accepts nothing but encodings. -/
theorem encodeOfDecode : Obligations.EncodeOfDecode := by
  intro k bs i h
  obtain ⟨hk, hw, he⟩ := (decode_eq_ok_iff k bs i).1 h
  exact ⟨he, hw, hk⟩

/-- Settles O5: twelve fixed words, each decoded by evaluation. -/
theorem tableWordsDecode : Obligations.TableWordsDecode := by
  unfold Obligations.TableWordsDecode
  decide

end Sys2Proof

/-! ### A request frame read as a reply -/

namespace Sys2Proof.Machine

/-- The opcodes and the response types are disjoint (30_encoding R93). -/
theorem ne_type_of_legalOpcode {op : Byte} (h : legalOpcode op = true) : op ≠ typeAck ∧ op ≠ typeNak := by
  simp only [legalOpcode, Bool.or_eq_true, beq_iff_eq] at h
  obtain (rfl | rfl) | rfl := h <;> decide

/-- `parseResponse` judges a frame with the right markers and checksum by its type alone (40_frame_codec R132 to R134). -/
theorem parseResponse_frameWith (b1 b2 b3 : Byte) :
    parseResponse (frameWith b1 b2 b3).toList =
      if b1 = typeAck then okResult (join16 b2 b3)
      else if b1 = typeNak then errResult .device (infoDevice (category b2) b2)
      else errResult .respType (infoRespType b1) := by
  simp [parseResponse, byteAt, Frame.toList, frameLen, frameWith]

/-- Settles O6: a request frame has the markers and the checksum of a reply, and its opcode is no response type. -/
theorem requestReadAsReplyFails : Obligations.RequestReadAsReplyFails := by
  constructor
  · intro bs i h
    obtain ⟨op, v, rfl, hd⟩ := (decodeRequestFrame_eq_ok_iff bs i).1 h
    have hl := legalOpcode_of_decodeRequest hd
    obtain ⟨hack, hnak⟩ := ne_type_of_legalOpcode hl
    exact ⟨op, hl, by rw [buildFrame, decodeResponse_frameWith, if_neg hack, if_neg hnak]⟩
  · intro op v hl
    obtain ⟨hack, hnak⟩ := ne_type_of_legalOpcode hl
    rw [buildFrame, parseResponse_frameWith, if_neg hack, if_neg hnak]

end Sys2Proof.Machine
end

section
/-!
The texts of the results (30_encoding R107).
-/

namespace Sys2Proof.Machine

/-- Settles O13: class by class, the free words stand around the fragment. -/
theorem resultTexts : Obligations.ResultTexts := by
  rintro ⟨status, value, info⟩
  refine ⟨?ok, ?device, ?writeFailed, ?readFailed, ?timeout, ?length, ?framing, ?checksum, ?respType, ?illegalOpcode⟩ <;>
    rintro rfl
  case ok | device => rfl
  case checksum => exact ⟨_, _, _, _, rfl⟩
  case writeFailed | readFailed | timeout | length | framing | respType | illegalOpcode => exact ⟨_, _, rfl⟩

end Sys2Proof.Machine
end

section
/-!
The checksum fold (40_frame_codec R122, R123), the bytes of a frame, and its syndrome: the fold of the bytes the checksum
covers and the received checksum itself.
-/

namespace Sys2Proof

/-! ### The fold -/

/-- The fold takes the next byte in at the end of a sequence. -/
theorem calculateBCC_concat (s : List Byte) (b : Byte) : calculateBCC (s ++ [b]) = calculateBCC s ^^^ b := by
  simp [calculateBCC]

theorem calculateBCC_perm {s t : List Byte} (h : s.Perm t) : calculateBCC s = calculateBCC t :=
  h.foldl_eq' (fun x _ y _ z => by ac_rfl) 0x00#8

theorem calculateBCC_cons (b : Byte) (s : List Byte) : calculateBCC (b :: s) = b ^^^ calculateBCC s := by
  rw [calculateBCC_perm (List.perm_append_singleton b s).symm, calculateBCC_concat, BitVec.xor_comm]

theorem calculateBCC_concat_self (s : List Byte) : calculateBCC (s ++ [calculateBCC s]) = 0x00#8 := by
  rw [calculateBCC_concat, BitVec.xor_self]

/-- Another byte in one place changes the fold by the difference of the two bytes, wherever the place is. -/
theorem calculateBCC_set (s : List Byte) (i : Nat) (b : Byte) (h : i < s.length) :
    calculateBCC (s.set i b) = calculateBCC s ^^^ (b ^^^ s[i]) := by
  induction s generalizing i with
  | nil => simp at h
  | cons a s ih =>
    cases i with
    | zero =>
      simp only [List.set_cons_zero, List.getElem_cons_zero, calculateBCC_cons]
      calc b ^^^ calculateBCC s
        _ = b ^^^ calculateBCC s ^^^ (a ^^^ a) := by simp
        _ = a ^^^ calculateBCC s ^^^ (b ^^^ a) := by ac_rfl
    | succ i =>
      simp only [List.set_cons_succ, List.getElem_cons_succ, calculateBCC_cons, BitVec.xor_assoc]
      rw [ih i (by simpa using h)]

/-- Settles O1: the bit of an XOR, its algebra, and the two laws of the fold. -/
theorem xorFoldLaws : Obligations.XorFoldLaws := by
  refine ⟨fun a b i => ?bitwise, fun a b c => ?algebra, fun s t => calculateBCC_perm, calculateBCC_concat_self⟩
  case bitwise => rw [BitVec.getLsbD_xor, Bool.bne_eq_xor]
  case algebra => exact ⟨BitVec.xor_comm a b, BitVec.xor_assoc a b c, BitVec.xor_zero, BitVec.xor_self⟩

/-! ### The bytes of a frame -/

@[simp] theorem frameWith_b5 (a b c : Byte) : (frameWith a b c).b5 = a ^^^ b ^^^ c := calculateBCC_three a b c

theorem toList_frameWith (a b c : Byte) :
    (frameWith a b c).toList = [0x02#8, a, b, c, 0x03#8, a ^^^ b ^^^ c] := by
  rw [← frameWith_b5]
  rfl

theorem eq_frameWith {f : Frame} (h0 : f.b0 = stx) (h4 : f.b4 = etx) (h5 : f.b1 ^^^ f.b2 ^^^ f.b3 = f.b5) :
    f = frameWith f.b1 f.b2 f.b3 := by
  cases f
  simp_all [frameWith]

/-- Settles O2: the frame's bytes are listed; equal data bytes cancel, and so do an opcode and its own copy. -/
theorem buildFrameBytes : Obligations.BuildFrameBytes := by
  intro op v
  have hb5 : (buildFrame op v).b5 = op ^^^ (hi8 v ^^^ lo8 v) := by
    rw [buildFrame, frameWith_b5, BitVec.xor_assoc]
  refine ⟨toList_frameWith op (hi8 v) (lo8 v), fun h => ?_, fun h => ?_⟩
  · rw [hb5, h, BitVec.xor_self, BitVec.xor_zero]
  · rw [hb5, h, BitVec.xor_self]

/-! ### The syndrome -/

/-- The fold of what the checksum covers and of the received checksum: zero exactly where the checksum is right
(40_frame_codec R123, R131). -/
def Frame.syndrome (f : Frame) : Byte := calculateBCC [f.b1, f.b2, f.b3, f.b5]

theorem Frame.syndrome_eq (f : Frame) : f.syndrome = f.b1 ^^^ f.b2 ^^^ f.b3 ^^^ f.b5 := by
  simp [Frame.syndrome, calculateBCC]

theorem Frame.syndrome_eq_zero_iff (f : Frame) : f.syndrome = 0x00#8 ↔ f.b1 ^^^ f.b2 ^^^ f.b3 = f.b5 := by
  rw [Frame.syndrome_eq, BitVec.xor_eq_zero_iff]

@[simp] theorem syndrome_frameWith (a b c : Byte) : (frameWith a b c).syndrome = 0x00#8 :=
  calculateBCC_concat_self [a, b, c]

/-- Another byte at one of the offsets 1, 2, 3, 5 changes the syndrome by the difference of the two bytes. -/
theorem Frame.syndrome_set {j : Nat} (f : Frame) (b : Byte) (hj : j = 1 ∨ j = 2 ∨ j = 3 ∨ j = 5) :
    (f.set j b).syndrome = f.syndrome ^^^ (b ^^^ f.get j) := by
  obtain rfl | rfl | rfl | rfl := hj
  · exact calculateBCC_set [f.b1, f.b2, f.b3, f.b5] 0 b (by simp)
  · exact calculateBCC_set [f.b1, f.b2, f.b3, f.b5] 1 b (by simp)
  · exact calculateBCC_set [f.b1, f.b2, f.b3, f.b5] 2 b (by simp)
  · exact calculateBCC_set [f.b1, f.b2, f.b3, f.b5] 3 b (by simp)

end Sys2Proof
end

section
/-!
`parseResponse`: its checks one by one (40_frame_codec R128 to R132), the replies it accepts (R133 to R135), and the errors
the checksum detects (R136).
-/

namespace Sys2Proof.Machine

/-! ### What the info words are as numbers -/

theorem infoWord_zero (b : Byte) : infoWord 0x00#8 b = zext16 b := by
  simp [infoWord, join16, zext16]

theorem infoLength_eq (n : Nat) : infoLength n = BitVec.ofNat 16 (min n 255) := by
  rw [infoLength, infoWord_zero]
  exact BitVec.setWidth_ofNat_of_le_of_lt (by decide) (by omega)

/-! ### The checks -/

theorem parseResponse_of_length {s : List Byte} (h : s.length ≠ 6) :
    parseResponse s = errResult .length (infoLength s.length) := if_pos h

/-- The markers are judged before the checksum and the type (40_frame_codec R128, R130). -/
theorem parseResponse_of_wrong_marker {f : Frame} (h : f.b0 ≠ stx ∨ f.b4 ≠ etx) :
    parseResponse f.toList = errResult .framing infoNone := by
  simp [parseResponse, byteAt, Frame.toList, frameLen, h]

/-- Between right markers, the checksum is judged before the type (40_frame_codec R128, R131). -/
theorem parseResponse_of_wrong_checksum {f : Frame} (h0 : f.b0 = stx) (h4 : f.b4 = etx)
    (h5 : f.b1 ^^^ f.b2 ^^^ f.b3 ≠ f.b5) :
    parseResponse f.toList = errResult .checksum (infoChecksum (f.b1 ^^^ f.b2 ^^^ f.b3) f.b5) := by
  simp [parseResponse, byteAt, Frame.toList, frameLen, h0, h4, h5]

/-- Where the markers and the checksum are right, the type alone decides the status (40_frame_codec R132 to R134). -/
theorem status_parseResponse_frameWith (b1 b2 b3 : Byte) :
    (parseResponse (frameWith b1 b2 b3).toList).status =
      if b1 = typeAck then .ok else if b1 = typeNak then .device else .respType := by
  rw [parseResponse_frameWith]
  split_ifs <;> rfl

/-- Everything six bytes can be: framing or checksum wrong, or a frame of the shape both directions share. -/
theorem parseResponse_toList_cases (f : Frame) :
    (parseResponse f.toList).status = .framing ∨ (parseResponse f.toList).status = .checksum ∨
      ∃ b1 b2 b3, f = frameWith b1 b2 b3 := by
  by_cases hm : f.b0 ≠ stx ∨ f.b4 ≠ etx
  · exact .inl (by rw [parseResponse_of_wrong_marker hm, errResult])
  · simp only [not_or, not_not] at hm
    obtain ⟨h0, h4⟩ := hm
    by_cases h5 : f.b1 ^^^ f.b2 ^^^ f.b3 = f.b5
    · exact .inr (.inr ⟨_, _, _, eq_frameWith h0 h4 h5⟩)
    · exact .inr (.inl (by rw [parseResponse_of_wrong_checksum h0 h4 h5, errResult]))

/-- Settles O7: check by check; six bytes pass the length check whichever of the others fails. -/
theorem parseResponseChecks : Obligations.ParseResponseChecks := by
  refine ⟨fun s h => ?length, fun f => ?six, fun f => parseResponse_of_wrong_marker,
    fun f => parseResponse_of_wrong_checksum, fun f h0 h4 h5 hack hnak => ?type⟩
  case length => rw [parseResponse_of_length h, infoLength_eq, errResult]
  case six =>
    obtain h | h | ⟨b1, b2, b3, rfl⟩ := parseResponse_toList_cases f
    · simp [h]
    · simp [h]
    · rw [status_parseResponse_frameWith]
      split_ifs <;> simp
  case type =>
    have hack : f.b1 ≠ typeAck := hack
    have hnak : f.b1 ≠ typeNak := hnak
    rw [eq_frameWith h0 h4 h5, parseResponse_frameWith, frameWith_b1, if_neg hack, if_neg hnak, infoRespType,
      infoWord_zero, errResult]

/-! ### Accepted replies -/

theorem parseResponse_ack (b2 b3 : Byte) :
    parseResponse [0x02#8, 0x06#8, b2, b3, 0x03#8, 0x06#8 ^^^ b2 ^^^ b3] = okResult (join16 b2 b3) := by
  rw [← toList_frameWith]
  exact (parseResponse_frameWith typeAck b2 b3).trans (if_pos rfl)

theorem parseResponse_nak (code reserved : Byte) :
    parseResponse [0x02#8, 0x15#8, code, reserved, 0x03#8, 0x15#8 ^^^ code ^^^ reserved] =
      errResult .device (infoDevice (category code) code) := by
  rw [← toList_frameWith]
  exact (parseResponse_frameWith typeNak code reserved).trans ((if_neg (by decide)).trans (if_pos rfl))

/-- The ACK that carries the two bytes of a value returns it. -/
theorem parseResponse_ack_hi8_lo8 (v : Word) :
    parseResponse [0x02#8, 0x06#8, hi8 v, lo8 v, 0x03#8, 0x06#8 ^^^ hi8 v ^^^ lo8 v] = okResult v := by
  rw [parseResponse_ack, join16_hi8_lo8]

/-- Settles O8: an ACK returns its two data bytes joined, so every value; a NAK its code and the code's category. -/
theorem parseResponseDecodes : Obligations.ParseResponseDecodes :=
  ⟨parseResponse_ack, parseResponse_nak, fun v => ⟨hi8 v, lo8 v, parseResponse_ack_hi8_lo8 v⟩⟩

/-- Settles O9: a request frame carries the two bytes of its value, whatever its opcode. -/
theorem ackRoundTrip : Obligations.AckRoundTrip :=
  fun _ v _ => parseResponse_ack_hi8_lo8 v

/-! ### What the checksum detects -/

theorem eq_frameWith_of_accepted {f : Frame}
    (h : (parseResponse f.toList).status = .ok ∨ (parseResponse f.toList).status = .device) :
    ∃ b1 b2 b3, f = frameWith b1 b2 b3 := by
  obtain hf | hf | hf := parseResponse_toList_cases f
  · simp [hf] at h
  · simp [hf] at h
  · exact hf

/-- A syndrome other than zero is reported: it is the difference of the two checksums in the info word. -/
theorem parseResponse_of_syndrome {f : Frame} (h0 : f.b0 = stx) (h4 : f.b4 = etx) (h : f.syndrome ≠ 0x00#8) :
    (parseResponse f.toList).status = .checksum ∧
      hi8 (parseResponse f.toList).info ^^^ lo8 (parseResponse f.toList).info = f.syndrome := by
  rw [parseResponse_of_wrong_checksum h0 h4 (mt f.syndrome_eq_zero_iff.2 h), f.syndrome_eq]
  simp [errResult, infoChecksum, infoWord]

/-- A syndrome of zero passes the checksum. -/
theorem status_ne_checksum_of_syndrome {f : Frame} (h0 : f.b0 = stx) (h4 : f.b4 = etx) (h : f.syndrome = 0x00#8) :
    (parseResponse f.toList).status ≠ .checksum := by
  rw [eq_frameWith h0 h4 (f.syndrome_eq_zero_iff.1 h), status_parseResponse_frameWith]
  split_ifs <;> simp

/-- Another byte at offset 1, 2, 3 or 5 of an accepted frame leaves its difference as the syndrome. -/
theorem status_checksum_of_set {f : Frame} {j : Nat} {b : Byte} (h0 : f.b0 = stx) (h4 : f.b4 = etx)
    (hs : f.syndrome = 0x00#8) (hj : j = 1 ∨ j = 2 ∨ j = 3 ∨ j = 5) (hb : b ≠ f.get j) :
    (parseResponse (f.set j b).toList).status = .checksum ∧
      hi8 (parseResponse (f.set j b).toList).info ^^^ lo8 (parseResponse (f.set j b).toList).info =
        b ^^^ f.get j := by
  have hset : (f.set j b).syndrome = b ^^^ f.get j := by rw [f.syndrome_set b hj, hs, BitVec.zero_xor]
  rw [← hset]
  refine parseResponse_of_syndrome ?_ ?_ (by rwa [hset, ne_eq, BitVec.xor_eq_zero_iff])
  · obtain rfl | rfl | rfl | rfl := hj <;> exact h0
  · obtain rfl | rfl | rfl | rfl := hj <;> exact h4

theorem status_framing_of_set {f : Frame} {j : Nat} {b : Byte} (h0 : f.b0 = stx) (h4 : f.b4 = etx) (hj : j = 0 ∨ j = 4)
    (hb : b ≠ f.get j) : (parseResponse (f.set j b).toList).status = .framing := by
  have hm : (f.set j b).b0 ≠ stx ∨ (f.set j b).b4 ≠ etx := by
    obtain rfl | rfl := hj
    · exact .inl (h0 ▸ hb)
    · exact .inr (h4 ▸ hb)
  rw [parseResponse_of_wrong_marker hm, errResult]

/-- Differences that XOR to zero are not seen. -/
theorem checksum_misses {f : Frame} {d1 d2 d3 d5 : Byte} (h0 : f.b0 = stx) (h4 : f.b4 = etx)
    (hs : f.syndrome = 0x00#8) (hd : d1 ^^^ d2 ^^^ d3 ^^^ d5 = 0x00#8) :
    (parseResponse [f.b0, f.b1 ^^^ d1, f.b2 ^^^ d2, f.b3 ^^^ d3, f.b4, f.b5 ^^^ d5]).status ≠ .checksum := by
  refine status_ne_checksum_of_syndrome (f := ⟨f.b0, f.b1 ^^^ d1, f.b2 ^^^ d2, f.b3 ^^^ d3, f.b4, f.b5 ^^^ d5⟩) h0 h4 ?_
  calc Frame.syndrome _
    _ = f.syndrome ^^^ (d1 ^^^ d2 ^^^ d3 ^^^ d5) := by simp only [Frame.syndrome_eq]; ac_rfl
    _ = 0x00#8 := by rw [hs, hd, BitVec.xor_self]

/-- An ACK with the same bits of both data bytes flipped keeps its checksum. -/
theorem parseResponse_ack_flipped (b2 b3 d : Byte) :
    parseResponse [0x02#8, 0x06#8, b2 ^^^ d, b3 ^^^ d, 0x03#8, 0x06#8 ^^^ b2 ^^^ b3] =
      okResult (join16 (b2 ^^^ d) (b3 ^^^ d)) := by
  have h : 0x06#8 ^^^ b2 ^^^ b3 = 0x06#8 ^^^ (b2 ^^^ d) ^^^ (b3 ^^^ d) := by
    calc 0x06#8 ^^^ b2 ^^^ b3
      _ = 0x06#8 ^^^ b2 ^^^ b3 ^^^ (d ^^^ d) := by simp
      _ = 0x06#8 ^^^ (b2 ^^^ d) ^^^ (b3 ^^^ d) := by ac_rfl
  rw [h, parseResponse_ack]

theorem join16_flipped_ne (b2 b3 : Byte) {d : Byte} (hd : d ≠ 0x00#8) :
    join16 (b2 ^^^ d) (b3 ^^^ d) ≠ join16 b2 b3 := by
  intro h
  have hhi : b2 ^^^ d = b2 ^^^ 0x00#8 := by simpa using congrArg hi8 h
  exact hd ((BitVec.xor_right_inj b2).1 hhi)

/-- Settles O10: an accepted frame has the markers and a syndrome of zero; each change is judged by what it makes of them. -/
theorem singleByteErrorsDetected : Obligations.SingleByteErrorsDetected := by
  refine ⟨fun f hf => ?_, fun b2 b3 d hd => ⟨parseResponse_ack_flipped b2 b3 d, join16_flipped_ne b2 b3 hd⟩⟩
  obtain ⟨b1, b2, b3, rfl⟩ := eq_frameWith_of_accepted hf
  have hs := syndrome_frameWith b1 b2 b3
  exact ⟨fun j b hj hb => status_checksum_of_set rfl rfl hs hj hb,
    fun j b hj hb => status_framing_of_set rfl rfl hj hb, fun d1 d2 d3 d5 hd => checksum_misses rfl rfl hs hd⟩

end Sys2Proof.Machine
end

section
/-!
The ports of a codec on its own (40_frame_codec R121): the six bytes of a frame as fields of a 48-bit number.
-/

namespace Sys2Proof

/-- A byte of a 48-bit number is a field of it. -/
theorem byteOfBits_toNat (x : BitVec 48) (k : Nat) : byteOfBits x.toNat k = x.extractLsb' (8 * (5 - k)) 8 := rfl

/-- Offset 0 is in bits 47:40 and offset 5 in bits 7:0. -/
theorem extractLsb'_toBits (f : Frame) {k : Nat} (hk : k < 6) : f.toBits.extractLsb' (8 * (5 - k)) 8 = f.get k := by
  -- `toBits` with its width as the sum the appends give it, which the library's rules speak of
  change (f.b0 ++ f.b1 ++ f.b2 ++ f.b3 ++ f.b4 ++ f.b5).extractLsb' (8 * (5 - k)) 8 = f.get k
  interval_cases k <;> (repeat rw [BitVec.extractLsb'_append_eq_of_le (by decide)])
  · exact BitVec.extractLsb'_eq_self
  all_goals exact BitVec.extractLsb'_append_eq_right

theorem ofNat_toBits (f : Frame) : Frame.ofNat f.toBits.toNat = f := by
  simp only [Frame.ofNat, byteOfBits_toNat]
  exact Machine.frame_eq_of_get fun j hj => by interval_cases j <;> exact extractLsb'_toBits f (by decide)

theorem hi8_append_lo8 (v : Word) : hi8 v ++ lo8 v = v := BitVec.extractLsb'_append_extractLsb'

theorem extractLsb'_toBits_data (f : Frame) : f.toBits.extractLsb' 16 16 = f.b2 ++ f.b3 :=
  calc f.toBits.extractLsb' 16 16
    _ = f.toBits.extractLsb' 24 8 ++ f.toBits.extractLsb' 16 8 :=
      (BitVec.extractLsb'_append_extractLsb'_eq_extractLsb' (len₁ := 8) (len₂ := 8) rfl).symm
    _ = f.b2 ++ f.b3 :=
      congrArg₂ (· ++ ·) (extractLsb'_toBits f (k := 2) (by decide)) (extractLsb'_toBits f (k := 3) (by decide))

end Sys2Proof

namespace Sys2Proof.Machine

theorem prResult_six (f : Frame) : prResult 6 f.toBits = parseResponse f.toList := by
  have h : prResult 6 f.toBits = parseResponse (Frame.ofNat f.toBits.toNat).toList := if_pos rfl
  rw [h, ofNat_toBits]

theorem prResult_of_ne {n : Nat} (h : n ≠ 6) (x : BitVec 48) : prResult n x = errResult .length (infoLength n) :=
  if_neg h

/-- Settles O11: the ports' numbers are read back field by field; a wrong length is reported by itself. -/
theorem codecPorts : Obligations.CodecPorts := by
  refine ⟨fun op v => ofNat_toBits _, prResult_six, fun n x y h => ⟨?_, ?_⟩, fun op v => ⟨?_, ?_, ?_, ?_⟩⟩
  · rw [prResult_of_ne h, prResult_of_ne h]
  · rw [prStatus, prResult_of_ne h]
    rfl
  · exact extractLsb'_toBits (buildFrame op v) (k := 0) (by decide)
  · exact extractLsb'_toBits (buildFrame op v) (k := 1) (by decide)
  · exact (extractLsb'_toBits_data (buildFrame op v)).trans (hi8_append_lo8 v)
  · exact extractLsb'_toBits (buildFrame op v) (k := 4) (by decide)

end Sys2Proof.Machine
end

section
/-!
The response rows in the decode phase (40_frame_codec R133, R134; 42_transaction_engine R180, R181), and the row of a device
error code as what a NAK does (41_error_mapper R150).
-/

namespace Sys2Proof.Machine

/-- A completion at an owner with a port releases the lock and puts the result into the owner's latch
(42_transaction_engine R181). -/
theorem complete_delivers (r : Result) {s : State} (h : s.owner < s.callers.length) :
    ∃ t, complete r s = .next t ∧ t.phase = .idle ∧
      rspOf s.owner t = some { valid := true, status := r.status, value := r.value, info := r.info } := by
  refine ⟨_, complete_of_lt r h, rfl, ?_⟩
  simp [rspOf, h]

theorem exec_ack_of_decode (v : Word) {s : State} (hp : s.phase = .decode) :
    exec (.ack v) s = complete (okResult v) s := by
  simp [exec, execAck, hp, succeed_eq, okResult]

/-- Settles O17: in the decode phase ACK is a completion with OK. -/
theorem ackRowSucceeds : Obligations.AckRowSucceeds := by
  intro s v hp ho
  rw [exec_ack_of_decode v hp]
  exact complete_delivers (okResult v) ho

theorem exec_nak (code reserved : Byte) (s : State) :
    exec (.nak code reserved) s = deviceError (category code) code s := execNak_eq code reserved s

theorem category_of_not_named {c : Byte} (h : isNamedCode c = false) : category c = .unknown := by
  rw [← Bool.not_eq_true, isNamedCode_iff] at h
  simp only [not_or] at h
  simp [category, h]

/-- The row of an error code is the device error of the code's category. -/
theorem exec_decodeErrCode (c : Byte) (s : State) : exec (decodeErrCode c) s = deviceError (category c) c s := by
  cases hn : isNamedCode c with
  | true => obtain rfl | rfl | rfl | rfl | rfl := (isNamedCode_iff c).1 hn <;> rfl
  | false =>
    rw [decodeErrCode_of_not_named hn, category_of_not_named hn]
    rfl

/-- Settles O18: in the decode phase NAK is a completion with E_DEVICE; NAK and the row of its code are one device error. -/
theorem nakRowReportsDeviceError : Obligations.NakRowReportsDeviceError := by
  refine ⟨fun s code reserved hp ho => ?_, fun s code reserved => ?_⟩
  · rw [exec_nak, deviceError_eq, if_pos hp]
    exact complete_delivers _ ho
  · rw [exec_nak, exec_decodeErrCode]

end Sys2Proof.Machine
end

section
/-!
The Device Error Mapper (41_error_mapper R150 to R158): the category and the text of a code, and what the code's row delivers.
-/

namespace Sys2Proof.Machine

/-! ### The unknown codes -/

theorem isNamedCode_eq_false_iff (c : Byte) :
    isNamedCode c = false ↔ c ≠ 0x02#8 ∧ c ≠ 0x04#8 ∧ c ≠ 0x05#8 ∧ c ≠ 0x06#8 ∧ c ≠ 0x07#8 := by
  simp only [← Bool.not_eq_true, isNamedCode_iff, not_or, ne_eq]

theorem category_ne_unknown_of_named {c : Byte} (h : isNamedCode c = true) : category c ≠ .unknown := by
  obtain rfl | rfl | rfl | rfl | rfl := (isNamedCode_iff c).1 h <;> decide

theorem category_eq_unknown_iff (c : Byte) : category c = .unknown ↔ isNamedCode c = false :=
  ⟨fun hu => Bool.eq_false_iff.2 fun hn => category_ne_unknown_of_named hn hu, category_of_not_named⟩

/-- The number 0 belongs to UNKNOWN alone (41_error_mapper R150). -/
theorem categoryCode_eq_zero_iff (k : Category) : categoryCode k = 0x00#8 ↔ k = .unknown := by
  cases k <;> decide

theorem describe_of_unknown {c : Byte} (h : category c = .unknown) : describe c = "unknown error code " ++ hex2 c := by
  simp only [describe, h]

/-- Settles O12: the named codes by their definition; the others are the unknown ones, whose text carries their digits. -/
theorem deviceCategories : Obligations.DeviceCategories := by
  refine ⟨⟨rfl, rfl⟩, ⟨rfl, rfl⟩, ⟨rfl, rfl⟩, ⟨rfl, rfl⟩, ⟨rfl, rfl⟩, ?unknown, ?digits, parseResponse_nak, ?number⟩
  case unknown =>
    intro c h2 h4 h5 h6 h7
    have hu : category c = .unknown := category_of_not_named ((isNamedCode_eq_false_iff c).2 ⟨h2, h4, h5, h6, h7⟩)
    exact ⟨hu, describe_of_unknown hu⟩
  case digits =>
    rw [describe_of_unknown rfl]
    decide
  case number =>
    intro c
    rw [categoryCode_eq_zero_iff, category_eq_unknown_iff, isNamedCode_eq_false_iff]

/-! ### The rows of the codes -/

/-- In the decode phase a device error is a completion with E_DEVICE, its category's number and its code
(60_exceptions R212). -/
theorem deviceError_delivers (c : Category) (code : Byte) {s : State} (hp : s.phase = .decode)
    (ho : s.owner < s.callers.length) :
    ∃ t, deviceError c code s = .next t ∧ t.phase = .idle ∧
      rspOf s.owner t = some { valid := true, status := .device, value := 0x0000#16, info := infoDevice c code } := by
  rw [deviceError_eq, if_pos hp]
  exact complete_delivers _ ho

theorem infoDevice_unknown (code : Byte) : infoDevice .unknown code = zext16 code := infoWord_zero code

/-- Settles O19: each row is the device error of its own category and code, and the info words are those two bytes. -/
theorem errorCodeRowsReport : Obligations.ErrorCodeRowsReport := by
  intro s hp ho
  refine ⟨deviceError_delivers .invalidAddress 0x02#8 hp ho, deviceError_delivers .invalidBcc 0x04#8 hp ho,
    deviceError_delivers .invalidCommand 0x05#8 hp ho, deviceError_delivers .invalidParameter 0x06#8 hp ho,
    deviceError_delivers .outOfRange 0x07#8 hp ho, fun c => ?unknown⟩
  rw [← infoDevice_unknown]
  exact deviceError_delivers .unknown c hp ho

end Sys2Proof.Machine
end

section
/-!
The latches of the caller ports (10_state R29): what each operation does to `PEND[i]` and to `RSP[i]`, and what the moves of
the ports at an edge make of them together (42_transaction_engine R189).
-/

namespace Sys2Proof.Machine

theorem pendOf_of_callers {s t : State} (h : t.callers = s.callers) (i : Nat) : pendOf i t = pendOf i s := by
  simp [pendOf, h]

theorem rspOf_of_callers {s t : State} (h : t.callers = s.callers) (i : Nat) : rspOf i t = rspOf i s := by
  simp [rspOf, h]

/-! ### Taking an event and ending an edge -/

@[simp] theorem rspOf_takeEvent (i : Nat) (s : State) : rspOf i (takeEvent s) = rspOf i s :=
  rspOf_of_callers (takeEvent_callers s) i

@[simp] theorem rspWaits_takeEvent (i : Nat) (s : State) : rspWaits i (takeEvent s) = rspWaits i s :=
  rspWaits_of_callers (takeEvent_callers s) i

@[simp] theorem mayRequest_takeEvent (i : Nat) (s : State) : mayRequest i (takeEvent s) = mayRequest i s := by
  simp [mayRequest, inFlight]

@[simp] theorem portMoves_takeEvent (p : PortsIn) (s : State) : portMoves p (takeEvent s) = portMoves p s := by
  have hreq : requestMove p (takeEvent s) = requestMove p s := funext fun i => by simp [requestMove, reqReady]
  have hrsp : responseMove p (takeEvent s) = responseMove p s := funext fun i => by simp [responseMove, rspValid]
  simp [portMoves, openMove, hreq, hrsp]

@[simp] theorem pendOf_endEdge (i : Nat) (p : PortsIn) (s : State) : pendOf i (endEdge p s) = pendOf i s := rfl

@[simp] theorem rspOf_endEdge (i : Nat) (p : PortsIn) (s : State) : rspOf i (endEdge p s) = rspOf i s := rfl

/-! ### Grant and completion -/

/-- What `RSP[i]` holds once the result `r` is delivered (42_transaction_engine R181). -/
def delivered (r : Result) : Rsp := { valid := true, status := r.status, value := r.value, info := r.info }

theorem pendOf_of_complete {r : Result} {s t : State} (h : complete r s = .next t) (i : Nat) :
    pendOf i t = pendOf i s := by
  obtain ⟨-, rfl⟩ := complete_eq_next h
  exact pendOf_setRsp s.owner i _ s

theorem rspOf_of_complete {r : Result} {s t : State} (h : complete r s = .next t) (i : Nat) :
    rspOf i t = if s.owner = i then some (delivered r) else rspOf i s := by
  obtain ⟨hl, rfl⟩ := complete_eq_next h
  refine (rspOf_setRsp s.owner i _ s).trans ?_
  split
  · next he =>
    subst he
    obtain ⟨q, hq⟩ := Option.ne_none_iff_exists'.1 (mt (rspOf_eq_none_iff s.owner s).1 (by omega))
    rw [hq]
    rfl
  · rfl

theorem pendOf_latchRequest (i j : Nat) (p : Pend) (s : State) :
    pendOf j (latchRequest i p s) = if i = j then (pendOf j s).map (fun _ => { p with valid := false }) else pendOf j s :=
  pendOf_setPend i j _ s

@[simp] theorem rspOf_latchRequest (i j : Nat) (p : Pend) (s : State) : rspOf j (latchRequest i p s) = rspOf j s :=
  rspOf_setPend i j _ s

/-! ### The moves of the ports -/

theorem pendOf_requestStep (i j : Nat) (op : Byte) (val : Word) (s : State) :
    pendOf j (requestStep i op val s) =
      if mayRequest i s = true ∧ i = j then some { valid := true, op := op, val := val } else pendOf j s := by
  obtain ⟨hm, he⟩ | ⟨hm, he⟩ := requestStep_cases i op val s <;> rw [he]
  · simp [hm]
  · obtain ⟨hl, -⟩ := (mayRequest_iff i s).1 hm
    rw [pendOf_setPend]
    by_cases hij : i = j
    · subst hij
      obtain ⟨q, hq⟩ := Option.ne_none_iff_exists'.1 (mt (pendOf_eq_none_iff i s).1 (by omega))
      simp [hm, hq]
    · simp [hij]

@[simp] theorem rspOf_requestStep (i j : Nat) (op : Byte) (val : Word) (s : State) :
    rspOf j (requestStep i op val s) = rspOf j s := by
  obtain ⟨-, he⟩ | ⟨-, he⟩ := requestStep_cases i op val s <;> simp [he]

@[simp] theorem pendOf_responseStep (i j : Nat) (s : State) : pendOf j (responseStep i s) = pendOf j s := by
  obtain ⟨-, he⟩ | ⟨r, -, -, he⟩ := responseStep_cases i s <;> simp [he]

/-- A latch without its valid bit. -/
def taken (r : Rsp) : Rsp := { r with valid := false }

theorem taken_of_not_valid {r : Rsp} (h : r.valid = false) : taken r = r := by
  cases r
  cases h
  rfl

theorem rspOf_responseStep (i j : Nat) (s : State) :
    rspOf j (responseStep i s) = if i = j then (rspOf j s).map taken else rspOf j s := by
  obtain ⟨hw, he⟩ | ⟨r, hr, -, he⟩ := responseStep_cases i s <;> rw [he]
  · split
    · next hij =>
      subst hij
      cases hq : rspOf i s with
      | none => rfl
      | some q =>
        have hv : q.valid = false := by simpa [rspWaits, hq] using hw
        simp [taken_of_not_valid hv]
    · rfl
  · rw [rspOf_setRsp]
    split
    · next hij =>
      subst hij
      rw [hr]
      rfl
    · rfl

@[simp] theorem pendOf_openStep (i : Nat) (s : State) : pendOf i (openStep s) = pendOf i s :=
  pendOf_of_callers (openStep_callers s) i

@[simp] theorem rspOf_openStep (i : Nat) (s : State) : rspOf i (openStep s) = rspOf i s :=
  rspOf_of_callers (openStep_callers s) i

/-- Of the port moves only a request of caller `j` touches `PEND[j]`. -/
theorem pendOf_portStep_of_ne {m : Move} {j : Nat} (h : ∀ op val, m ≠ .request j op val) (s : State) :
    pendOf j (portStep m s) = pendOf j s := by
  cases m with
  | openChannel => exact pendOf_openStep j s
  | response i => exact pendOf_responseStep i j s
  | request i op val =>
    refine (pendOf_requestStep i j op val s).trans (if_neg ?_)
    rintro ⟨-, rfl⟩
    exact h op val rfl
  | _ => rfl

/-- Of the port moves only a response step of caller `j` touches `RSP[j]`. -/
theorem rspOf_portStep (m : Move) (j : Nat) (s : State) :
    rspOf j (portStep m s) = if m = .response j then (rspOf j s).map taken else rspOf j s := by
  cases m with
  | openChannel => simp [portStep]
  | request i op val => simp [portStep]
  | response i => simpa [portStep] using rspOf_responseStep i j s
  | _ => simp [portStep]

theorem pendOf_afterMoves_of_not_mem {ms : List Move} {j : Nat} (h : ∀ op val, .request j op val ∉ ms) (s : State) :
    pendOf j (afterMoves ms s) = pendOf j s := by
  induction ms generalizing s with
  | nil => rfl
  | cons m ms ih =>
    simp only [List.mem_cons, not_or] at h
    refine (ih (fun op val => (h op val).2) _).trans (pendOf_portStep_of_ne (fun op val he => ?_) s)
    exact (h op val).1 he.symm

/-- After any number of port moves `RSP[j]` is as it was, or taken if one of them takes it. -/
theorem rspOf_afterMoves (ms : List Move) (j : Nat) (s : State) :
    rspOf j (afterMoves ms s) = if .response j ∈ ms then (rspOf j s).map taken else rspOf j s := by
  induction ms generalizing s with
  | nil => simp [afterMoves]
  | cons m ms ih =>
    have htaken : taken ∘ taken = taken := rfl
    refine (ih (portStep m s)).trans ?_
    simp only [rspOf_portStep, List.mem_cons]
    by_cases hm : m = .response j
    · simp [hm, htaken]
    · simp [hm, Ne.symm hm]

/-! ### What the ports ask for -/

theorem mem_openMove {p : PortsIn} {s : State} {m : Move} :
    m ∈ openMove p s ↔ m = .openChannel ∧ p.openReq = true ∧ s.isOpen = false := by
  unfold openMove
  split
  · next hc => simpa using fun _ => by simpa using hc
  · next hc =>
    simp only [List.not_mem_nil, false_iff]
    rintro ⟨-, hreq, ho⟩
    simp [hreq, ho] at hc

theorem mem_responseMove {p : PortsIn} {s : State} {m : Move} {i : Nat} :
    m ∈ responseMove p s i ↔ m = .response i ∧ rspValid p.rst i s = true ∧ p.rspReady.getD i false = true := by
  rw [responseMove, ← Bool.and_eq_true_iff]
  split
  · next hc => rw [List.mem_singleton, and_iff_left hc]
  · next hc => simp only [List.not_mem_nil, false_iff, not_and]; exact fun _ => hc

theorem mem_requestMove {p : PortsIn} {s : State} {m : Move} {i : Nat} :
    m ∈ requestMove p s i ↔
      ∃ op val, m = .request i op val ∧ p.req[i]? = some (some (op, val)) ∧ reqReady p.rst i s = true := by
  unfold requestMove
  split
  · next op val hq =>
    cases hc : reqReady p.rst i s <;> simp [hq]
  · next hn =>
    simp only [List.not_mem_nil, false_iff]
    rintro ⟨op, val, -, hq, -⟩
    exact hn op val hq

theorem mem_portMoves {p : PortsIn} {s : State} {m : Move} :
    m ∈ portMoves p s ↔ m ∈ openMove p s ∨ (∃ i < s.callers.length, m ∈ responseMove p s i) ∨
      ∃ i < s.callers.length, m ∈ requestMove p s i := by
  simp only [portMoves, List.mem_append, List.mem_flatMap, List.mem_range, or_assoc]

theorem lt_of_rspWaits {i : Nat} {s : State} (h : rspWaits i s = true) : i < s.callers.length := by
  by_contra hn
  simp [rspWaits, (rspOf_eq_none_iff i s).2 (Nat.le_of_not_lt hn)] at h

theorem mem_portMoves_openChannel {p : PortsIn} {s : State} :
    .openChannel ∈ portMoves p s ↔ p.openReq = true ∧ s.isOpen = false := by
  simp [mem_portMoves, mem_openMove, mem_responseMove, mem_requestMove]

theorem mem_portMoves_response {p : PortsIn} {s : State} {i : Nat} :
    .response i ∈ portMoves p s ↔ rspValid p.rst i s = true ∧ p.rspReady.getD i false = true := by
  have hlt : rspValid p.rst i s = true → i < s.callers.length :=
    fun h => lt_of_rspWaits (Bool.and_eq_true_iff.1 h).2
  simpa [mem_portMoves, mem_openMove, mem_responseMove, mem_requestMove] using fun h _ => hlt h

theorem mem_portMoves_request {p : PortsIn} {s : State} {i : Nat} {op : Byte} {val : Word} :
    .request i op val ∈ portMoves p s ↔ p.req[i]? = some (some (op, val)) ∧ reqReady p.rst i s = true := by
  have hlt : reqReady p.rst i s = true → i < s.callers.length :=
    fun h => ((mayRequest_iff i s).1 (Bool.and_eq_true_iff.1 h).2).1
  simpa [mem_portMoves, mem_openMove, mem_responseMove, mem_requestMove] using fun _ h => hlt h

/-! ### What waits goes on waiting, and what is new was delivered -/

/-- Every request that waits goes on waiting unchanged (42_transaction_engine R185). -/
def PendKept (s t : State) : Prop := ∀ i, waits i s = true → pendOf i t = pendOf i s

/-- Caller `j` has no response that it did not have before (42_transaction_engine R181, R182). -/
def RspKept (j : Nat) (s t : State) : Prop := ∀ r, rspOf j t = some r → r.valid = true → rspOf j s = some r

theorem PendKept.trans {s u t : State} (h : PendKept s u) (h' : PendKept u t) : PendKept s t := by
  intro i hi
  have hu : waits i u = true := by simpa [waits, h i hi] using hi
  exact (h' i hu).trans (h i hi)

theorem RspKept.trans {j : Nat} {s u t : State} (h : RspKept j s u) (h' : RspKept j u t) : RspKept j s t :=
  fun r hr hv => h r (h' r hr hv) hv

theorem pendKept_of_pendOf {s t : State} (h : ∀ i, pendOf i t = pendOf i s) : PendKept s t := fun i _ => h i

theorem rspKept_of_rspOf {j : Nat} {s t : State} (h : rspOf j t = rspOf j s) : RspKept j s t :=
  fun _ hr _ => h ▸ hr

theorem pendKept_requestStep (i : Nat) (op : Byte) (val : Word) (s : State) : PendKept s (requestStep i op val s) := by
  intro j hj
  refine (pendOf_requestStep i j op val s).trans (if_neg ?_)
  rintro ⟨hm, rfl⟩
  obtain ⟨-, hw, -⟩ := (mayRequest_iff i s).1 hm
  simp [hw] at hj

theorem rspKept_responseStep (i j : Nat) (s : State) : RspKept j s (responseStep i s) := by
  intro r hr hv
  rw [rspOf_responseStep] at hr
  split at hr
  · obtain ⟨q, -, rfl⟩ := Option.map_eq_some_iff.1 hr
    cases hv
  · exact hr

theorem pendKept_portStep (m : Move) (s : State) : PendKept s (portStep m s) := by
  cases m with
  | request i op val => exact pendKept_requestStep i op val s
  | _ => exact pendKept_of_pendOf fun j => pendOf_portStep_of_ne (by simp) s

theorem pendKept_afterMoves (ms : List Move) (s : State) : PendKept s (afterMoves ms s) := by
  induction ms generalizing s with
  | nil => exact fun _ _ => rfl
  | cons m ms ih => exact (pendKept_portStep m s).trans (ih _)

theorem rspKept_afterMoves (ms : List Move) (j : Nat) (s : State) : RspKept j s (afterMoves ms s) := by
  intro r hr hv
  rw [rspOf_afterMoves] at hr
  split at hr
  · obtain ⟨q, -, rfl⟩ := Option.map_eq_some_iff.1 hr
    cases hv
  · exact hr

end Sys2Proof.Machine
end

section
/-!
The decode step is the completion of `parseResponse` (42_transaction_engine R180): the reply's row and the function of
40_frame_codec R128 agree on every six bytes.
-/

namespace Sys2Proof.Machine

theorem decodeResponse_of_wrong_marker {f : Frame} (h : f.b0 ≠ stx ∨ f.b4 ≠ etx) :
    decodeResponse f.toList = .error .framing := by
  simp [decodeResponse, structuralCheck, Frame.toList, h]

theorem decodeResponse_of_wrong_checksum {f : Frame} (h0 : f.b0 = stx) (h4 : f.b4 = etx)
    (h5 : f.b1 ^^^ f.b2 ^^^ f.b3 ≠ f.b5) :
    decodeResponse f.toList = .error (.checksum (f.b1 ^^^ f.b2 ^^^ f.b3) f.b5) := by
  simp [decodeResponse, structuralCheck, Frame.toList, h0, h4, h5]

theorem decodeStep_of_error {s : State} {e : Reject} (hp : s.phase = .decode)
    (hd : decodeResponse s.rxBuf.toList = .error e) :
    decodeStep s = complete (errResult (rejectStatus e) (rejectInfo e)) s := by
  simp [decodeStep, hp, hd, fail_eq, errResult]

theorem decodeStep_of_ok {s : State} {i : Instr} (hp : s.phase = .decode)
    (hd : decodeResponse s.rxBuf.toList = .ok i) : decodeStep s = exec i s := by
  simp [decodeStep, hp, hd]

/-- In the decode phase, check by check, the step completes with what `parseResponse` gives. -/
theorem decodeStep_eq {s : State} (hp : s.phase = .decode) :
    decodeStep s = complete (parseResponse s.rxBuf.toList) s := by
  by_cases hm : s.rxBuf.b0 ≠ stx ∨ s.rxBuf.b4 ≠ etx
  · rw [decodeStep_of_error hp (decodeResponse_of_wrong_marker hm), parseResponse_of_wrong_marker hm]
    rfl
  · simp only [not_or, not_not] at hm
    obtain ⟨h0, h4⟩ := hm
    by_cases h5 : s.rxBuf.b1 ^^^ s.rxBuf.b2 ^^^ s.rxBuf.b3 = s.rxBuf.b5
    · have hd := decodeResponse_frameWith s.rxBuf.b1 s.rxBuf.b2 s.rxBuf.b3
      have hr := parseResponse_frameWith s.rxBuf.b1 s.rxBuf.b2 s.rxBuf.b3
      rw [← eq_frameWith h0 h4 h5] at hd hr
      rw [hr]
      split_ifs at hd ⊢
      · rw [decodeStep_of_ok hp hd, exec_ack_of_decode _ hp]
      · rw [decodeStep_of_ok hp hd, exec_nak, deviceError_eq, if_pos hp, errResult]
      · rw [decodeStep_of_error hp hd]
        rfl
    · rw [decodeStep_of_error hp (decodeResponse_of_wrong_checksum h0 h4 h5), parseResponse_of_wrong_checksum h0 h4 h5]
      rfl

theorem decodeStep_of_ne {s : State} (hp : s.phase ≠ .decode) : decodeStep s = .next s := by
  simp [decodeStep, hp]

theorem writeStep_of_ne (n : Nat) (err : Xfer) (dur : Nat) {s : State} (hp : s.phase ≠ .write) :
    writeStep n err dur s = .next s := by
  simp [writeStep, hp]

theorem readStep_of_ne (n : Nat) (err : Xfer) (dur : Nat) {s : State} (hp : s.phase ≠ .read) :
    readStep n err dur s = .next s := by
  simp [readStep, hp]

/-- Settles O28: the row of the reply, or the check that fails, is what `parseResponse` reports. -/
theorem decodeStepIsParseResponse : Obligations.DecodeStepIsParseResponse :=
  fun _ => ⟨decodeStep_eq, decodeStep_of_ne⟩

end Sys2Proof.Machine
end

section
/-!
A transaction in flight (42_transaction_engine R172): a step that is no reset lets it go on, or ends it with the result of its
phase, delivered to its owner. With the lock free a step leaves it free, starts a transaction, or refuses an opcode.
-/

namespace Sys2Proof.Machine

/-! ### What a step can make of a transaction -/

/-- The result that the phase `s` is in can end its transaction with (42_transaction_engine R173, R174, R180). -/
inductive EndsWith (s : State) : Result → Prop
  | writeTimeout (hp : s.phase = .write) (hd : s.deadline ≤ s.now) :
    EndsWith s (errResult .timeout (infoTimeoutWrite s.txCnt))
  | writeFailed (hp : s.phase = .write) (hd : s.now < s.deadline) : EndsWith s (errResult .writeFailed infoNone)
  | readTimeout (hp : s.phase = .read) (hd : s.deadline ≤ s.now) :
    EndsWith s (errResult .timeout (infoTimeoutRead s.rxCnt))
  | readFailed (hp : s.phase = .read) (hd : s.now < s.deadline) : EndsWith s (errResult .readFailed infoNone)
  | decoded (hp : s.phase = .decode) : EndsWith s (parseResponse s.rxBuf.toList)

section
variable {s : State} {r : Result} (h : EndsWith s r)
include h

theorem endsWith_of_write (hp : s.phase = .write) :
    (s.deadline ≤ s.now ∧ r = errResult .timeout (infoTimeoutWrite s.txCnt)) ∨
      (s.now < s.deadline ∧ r = errResult .writeFailed infoNone) := by
  cases h with
  | writeTimeout _ hd => exact .inl ⟨hd, rfl⟩
  | writeFailed _ hd => exact .inr ⟨hd, rfl⟩
  | readTimeout hn _ | readFailed hn _ | decoded hn => simp [hp] at hn

theorem endsWith_of_read (hp : s.phase = .read) :
    (s.deadline ≤ s.now ∧ r = errResult .timeout (infoTimeoutRead s.rxCnt)) ∨
      (s.now < s.deadline ∧ r = errResult .readFailed infoNone) := by
  cases h with
  | readTimeout _ hd => exact .inl ⟨hd, rfl⟩
  | readFailed _ hd => exact .inr ⟨hd, rfl⟩
  | writeTimeout hn _ | writeFailed hn _ | decoded hn => simp [hp] at hn

theorem endsWith_of_decode (hp : s.phase = .decode) : r = parseResponse s.rxBuf.toList := by
  cases h with
  | decoded _ => rfl
  | writeTimeout hn _ | writeFailed hn _ | readTimeout hn _ | readFailed hn _ => simp [hp] at hn

end

/-- The transaction is still in flight, the same one, in its phase or the next (42_transaction_engine R172). -/
structure GoesOn (s t : State) : Prop where
  inFlight : t.phase ≠ .idle
  phase : t.phase = s.phase ∨ (s.phase = .write ∧ t.phase = .read) ∨ (s.phase = .read ∧ t.phase = .decode)
  owner : t.owner = s.owner
  reqOp : t.reqOp = s.reqOp
  reqVal : t.reqVal = s.reqVal
  txBuf : t.txBuf = s.txBuf
  deadline : t.deadline = s.deadline
  txCnt : s.txCnt ≤ t.txCnt
  rxCnt : s.rxCnt ≤ t.rxCnt

/-- The lock is free, and the one new response is `r`, at caller `o` (42_transaction_engine R181). -/
structure Delivers (o : Nat) (r : Result) (s t : State) : Prop where
  idle : t.phase = .idle
  rsp : rspWaits o s = false → rspOf o t = some (delivered r)
  others : ∀ j, j ≠ o → RspKept j s t

/-- What a step that is no reset makes of the transaction in flight. -/
def Proceeds (s t : State) : Prop :=
  (GoesOn s t ∧ ∀ j, RspKept j s t) ∨ ∃ r, EndsWith s r ∧ Delivers s.owner r s t

/-- A step with the lock free begins the transaction of a legal request (42_transaction_engine R168). -/
structure Starts (s t : State) : Prop where
  phase : t.phase = .write
  legal : legalOpcode t.reqOp = true
  txCnt : t.txCnt = 0
  rxCnt : t.rxCnt = 0
  deadline : t.deadline = s.now + s.cfg.tDeadline
  owner : waits t.owner s = true

/-- What a step that is no reset does with the lock free: nothing to the lock, a start, or a refusal (42_transaction_engine
R168, R169). -/
def Grants (s t : State) : Prop :=
  ((t.phase = .idle ∨ Starts s t) ∧ ∀ j, RspKept j s t) ∨
    ∃ i p, pendOf i s = some p ∧ p.valid = true ∧ legalOpcode p.op = false ∧
      Delivers i (errResult .illegalOpcode (infoIllegalOpcode p.op)) s t

/-! ### The fields these are about -/

theorem goesOn_of_core {s t : State} (hb : s.phase ≠ .idle) (hp : t.phase = s.phase := by simp)
    (hw : t.owner = s.owner := by simp) (ho : t.reqOp = s.reqOp := by simp) (hv : t.reqVal = s.reqVal := by simp)
    (hx : t.txBuf = s.txBuf := by simp) (hd : t.deadline = s.deadline := by simp) (htx : t.txCnt = s.txCnt := by simp)
    (hrx : t.rxCnt = s.rxCnt := by simp) : GoesOn s t :=
  ⟨hp ▸ hb, .inl hp, hw, ho, hv, hx, hd, htx.ge, hrx.ge⟩

theorem proceeds_of_core {s t : State} (h : GoesOn s t) (hc : ∀ j, rspOf j t = rspOf j s := by simp) : Proceeds s t :=
  .inl ⟨h, fun j => rspKept_of_rspOf (hc j)⟩

theorem delivers_of_complete {r : Result} {s u t : State} (h : complete r u = .next t)
    (hc : ∀ j, rspOf j u = rspOf j s) : Delivers u.owner r s t := by
  refine ⟨phase_of_complete h, fun _ => ?_, fun j hj => ?_⟩
  · rw [rspOf_of_complete h, if_pos rfl]
  · exact rspKept_of_rspOf (by rw [rspOf_of_complete h, if_neg (Ne.symm hj), hc])

theorem endsWith_takeEvent {s : State} {r : Result} (h : EndsWith (takeEvent s) r) : EndsWith s r := by
  cases h with
  | writeTimeout hp hd => simpa using EndsWith.writeTimeout (s := s) (by simpa using hp) (by simpa using hd)
  | writeFailed hp hd => exact .writeFailed (by simpa using hp) (by simpa using hd)
  | readTimeout hp hd => simpa using EndsWith.readTimeout (s := s) (by simpa using hp) (by simpa using hd)
  | readFailed hp hd => exact .readFailed (by simpa using hp) (by simpa using hd)
  | decoded hp => simpa using EndsWith.decoded (s := s) (by simpa using hp)

theorem rspKept_takeEvent {j : Nat} {s t : State} (h : RspKept j (takeEvent s) t) : RspKept j s t := by
  simpa [RspKept] using h

theorem delivers_takeEvent {o : Nat} {r : Result} {s t : State} (h : Delivers o r (takeEvent s) t) :
    Delivers o r s t :=
  ⟨h.idle, fun hw => h.rsp (by simpa using hw), fun j hj => rspKept_takeEvent (h.others j hj)⟩

theorem goesOn_takeEvent {s t : State} (h : GoesOn (takeEvent s) t) : GoesOn s t := by
  obtain ⟨hb, hp, hw, ho, hv, hx, hd, htx, hrx⟩ := h
  exact ⟨hb, by simpa using hp, by simpa using hw, by simpa using ho, by simpa using hv, by simpa using hx,
    by simpa using hd, by simpa using htx, by simpa using hrx⟩

theorem proceeds_takeEvent {s t : State} (h : Proceeds (takeEvent s) t) : Proceeds s t := by
  obtain ⟨hg, hr⟩ | ⟨r, he, hd⟩ := h
  · exact .inl ⟨goesOn_takeEvent hg, fun j => rspKept_takeEvent (hr j)⟩
  · exact .inr ⟨r, endsWith_takeEvent he, by simpa using delivers_takeEvent hd⟩

theorem grants_takeEvent {s t : State} (h : Grants (takeEvent s) t) : Grants s t := by
  obtain ⟨ht, hr⟩ | ⟨i, p, hp, hv, hl, hd⟩ := h
  · refine .inl ⟨ht.imp_right fun hs => ?_, fun j => rspKept_takeEvent (hr j)⟩
    obtain ⟨hp, hl, htx, hrx, hd, hw⟩ := hs
    exact ⟨hp, hl, htx, hrx, by simpa using hd, by simpa using hw⟩
  · exact .inr ⟨i, p, by simpa using hp, hv, hl, delivers_takeEvent hd⟩

/-! ### The ports' part of an edge -/

/-- What the rest of an edge makes of what its core's step answered. -/
def portPart (p : PortsIn) (s u : State) : State := endEdge p (afterMoves (portMoves p s) u)

section
variable (p : PortsIn) {s u : State}

theorem rspKept_portPart {j : Nat} (h : RspKept j s u) : RspKept j s (portPart p s u) :=
  h.trans (rspKept_afterMoves _ j u)

/-- A response that is new at an edge is not taken at it: `rsp_valid` was 0 (42_transaction_engine R189). -/
theorem rspOf_portPart_of_not_waits {o : Nat} (hw : rspWaits o s = false) : rspOf o (portPart p s u) = rspOf o u := by
  have hn : .response o ∉ portMoves p s := by simp [mem_portMoves_response, rspValid, hw]
  exact (rspOf_afterMoves _ o u).trans (if_neg hn)

theorem delivers_portPart {o : Nat} {r : Result} (h : Delivers o r s u) : Delivers o r s (portPart p s u) :=
  ⟨by simpa [portPart] using h.idle, fun hw => (rspOf_portPart_of_not_waits p hw).trans (h.rsp hw),
    fun j hj => rspKept_portPart p (h.others j hj)⟩

theorem goesOn_portPart (h : GoesOn s u) : GoesOn s (portPart p s u) := by
  obtain ⟨hb, hp, hw, ho, hv, hx, hd, htx, hrx⟩ := h
  refine ⟨?_, ?_, ?_, ?_, ?_, ?_, ?_, ?_, ?_⟩ <;> simpa [portPart]

theorem proceeds_portPart (h : Proceeds s u) : Proceeds s (portPart p s u) := by
  obtain ⟨hg, hr⟩ | ⟨r, he, hd⟩ := h
  · exact .inl ⟨goesOn_portPart p hg, fun j => rspKept_portPart p (hr j)⟩
  · exact .inr ⟨r, he, delivers_portPart p hd⟩

theorem grants_portPart (h : Grants s u) : Grants s (portPart p s u) := by
  obtain ⟨ht, hr⟩ | ⟨i, q, hq, hv, hl, hd⟩ := h
  · refine .inl ⟨ht.imp (fun hi => by simpa [portPart] using hi) fun hs => ?_, fun j => rspKept_portPart p (hr j)⟩
    obtain ⟨hp, hl, htx, hrx, hd, hw⟩ := hs
    refine ⟨?_, ?_, ?_, ?_, ?_, ?_⟩ <;> simpa [portPart]
  · exact .inr ⟨i, q, hq, hv, hl, delivers_portPart p hd⟩

end

/-! ### Move by move -/

theorem grantStep_of_not_mayGrant {i : Nat} {s : State} (h : mayGrant i s = false) : grantStep i s = .next s := by
  simp [grantStep, h]

theorem mayGrant_of_inFlight (i : Nat) {s : State} (hb : s.phase ≠ .idle) : mayGrant i s = false := by
  simp [mayGrant, hb]

theorem goesOn_countSent (k d : Nat) {s : State} (hp : s.phase = .write) : GoesOn s (countSent k (chWrite k d s)) := by
  have hph : (countSent k (chWrite k d s)).phase = if s.txCnt + k = frameLen then .read else .write := by simp [hp]
  refine ⟨?_, ?_, rfl, rfl, rfl, rfl, rfl, Nat.le_add_right _ _, Nat.le_refl _⟩
  · rw [hph]; split <;> simp
  · rw [hph]; split <;> simp [hp]

theorem goesOn_storeReply (r : List Byte) (k d : Nat) {s : State} (hp : s.phase = .read) :
    GoesOn s (storeReply r (chRead k d s)) := by
  have hph : (storeReply r (chRead k d s)).phase = if s.rxCnt + r.length = frameLen then .decode else .read := by
    simp [hp]
  refine ⟨?_, ?_, rfl, rfl, rfl, rfl, rfl, Nat.le_refl _, Nat.le_add_right _ _⟩
  · rw [hph]; split <;> simp
  · rw [hph]; split <;> simp [hp]

theorem proceeds_of_complete {r : Result} {s u t : State} (he : EndsWith s r) (h : complete r u = .next t)
    (hw : u.owner = s.owner := by rfl) (hc : ∀ j, rspOf j u = rspOf j s := by exact fun _ => rfl) : Proceeds s t :=
  .inr ⟨r, he, hw ▸ delivers_of_complete h hc⟩

theorem proceeds_writeStep {n dur : Nat} {err : Xfer} {s t : State} (hb : s.phase ≠ .idle)
    (h : writeStep n err dur s = .next t) : Proceeds s t := by
  obtain ⟨-, he⟩ | ⟨hp, hd, he⟩ | ⟨hp, hd, -, he⟩ | ⟨hp, -, -, he⟩ := writeStep_cases n err dur s
  · cases he.symm.trans h; exact proceeds_of_core (goesOn_of_core hb)
  · exact proceeds_of_complete (.writeTimeout hp hd) (he.symm.trans h)
  · exact proceeds_of_complete (.writeFailed hp hd) (he.symm.trans h)
  · cases he.symm.trans h; exact proceeds_of_core (goesOn_countSent _ _ hp) (fun _ => rfl)

theorem proceeds_readStep {n dur : Nat} {err : Xfer} {s t : State} (hb : s.phase ≠ .idle)
    (h : readStep n err dur s = .next t) : Proceeds s t := by
  obtain ⟨-, he⟩ | ⟨hp, hd, he⟩ | ⟨hp, hd, -, he⟩ | ⟨hp, -, -, he⟩ := readStep_cases n err dur s
  · cases he.symm.trans h; exact proceeds_of_core (goesOn_of_core hb)
  · exact proceeds_of_complete (.readTimeout hp hd) (he.symm.trans h)
  · exact proceeds_of_complete (.readFailed hp hd) (he.symm.trans h)
  · cases he.symm.trans h; exact proceeds_of_core (goesOn_storeReply _ _ _ hp) (fun _ => rfl)

theorem proceeds_decodeStep {s t : State} (hb : s.phase ≠ .idle) (h : decodeStep s = .next t) : Proceeds s t := by
  by_cases hp : s.phase = .decode
  · exact proceeds_of_complete (.decoded hp) ((decodeStep_eq hp).symm.trans h)
  · cases (decodeStep_of_ne hp).symm.trans h; exact proceeds_of_core (goesOn_of_core hb)

theorem proceeds_runMove {m : Move} {s t : State} (hb : s.phase ≠ .idle) (hm : m ≠ .reset)
    (h : runMove m s = .next t) : Proceeds s t := by
  cases m with
  | reset => exact absurd rfl hm
  | configure c => cases h; exact proceeds_of_core (goesOn_of_core hb) fun j => rspOf_of_callers (by simp) j
  | openChannel => cases h; exact proceeds_of_core (goesOn_of_core hb)
  | request i op val => cases h; exact proceeds_of_core (goesOn_of_core hb)
  | grant i =>
    cases (grantStep_of_not_mayGrant (mayGrant_of_inFlight i hb)).symm.trans h
    exact proceeds_of_core (goesOn_of_core hb)
  | write n err dur => exact proceeds_writeStep hb h
  | read n err dur => exact proceeds_readStep hb h
  | decode => exact proceeds_decodeStep hb h
  | response i => cases h; exact .inl ⟨goesOn_of_core hb, fun j => rspKept_responseStep i j s⟩
  | device bs => cases h; exact proceeds_of_core (goesOn_of_core hb) fun _ => rfl
  | advance k => cases h; exact proceeds_of_core (goesOn_of_core hb) fun _ => rfl

theorem grants_grantStep {i : Nat} {s t : State} (hi : s.phase = .idle) (h : grantStep i s = .next t) : Grants s t := by
  obtain ⟨-, he⟩ | ⟨p, -, hp, hv, ⟨hl, he⟩ | ⟨hl, he⟩⟩ := grantStep_cases i s
  · cases he.symm.trans h; exact .inl ⟨.inl hi, fun j => rspKept_of_rspOf rfl⟩
  · cases he.symm.trans h
    exact .inl ⟨.inr ⟨rfl, hl, rfl, rfl, rfl, (waits_iff i s).2 ⟨p, hp, hv⟩⟩, fun j => rspKept_of_rspOf (rspOf_latchRequest i j p s)⟩
  · exact .inr ⟨i, p, hp, hv, hl, delivers_of_complete (he.symm.trans h) fun j => rspOf_latchRequest i j p s⟩

theorem grants_of_core {s t : State} (hi : s.phase = .idle) (hp : t.phase = s.phase := by simp)
    (hc : ∀ j, rspOf j t = rspOf j s := by simp) : Grants s t :=
  .inl ⟨.inl (hp.trans hi), fun j => rspKept_of_rspOf (hc j)⟩

theorem grants_runMove {m : Move} {s t : State} (hi : s.phase = .idle) (hm : m ≠ .reset)
    (h : runMove m s = .next t) : Grants s t := by
  cases m with
  | reset => exact absurd rfl hm
  | configure c => cases h; exact grants_of_core hi (by simp) fun j => rspOf_of_callers (by simp) j
  | openChannel => cases h; exact grants_of_core hi
  | request i op val => cases h; exact grants_of_core hi
  | grant i => exact grants_grantStep hi h
  | write n err dur =>
    cases (writeStep_of_ne n err dur (by simp [hi])).symm.trans h; exact grants_of_core hi
  | read n err dur =>
    cases (readStep_of_ne n err dur (by simp [hi])).symm.trans h; exact grants_of_core hi
  | decode => cases (decodeStep_of_ne (by simp [hi])).symm.trans h; exact grants_of_core hi
  | response i => cases h; exact .inl ⟨.inl ((responseStep_phase i s).trans hi), fun j => rspKept_responseStep i j s⟩
  | device bs => cases h; exact grants_of_core hi rfl fun _ => rfl
  | advance k => cases h; exact grants_of_core hi rfl fun _ => rfl

/-! ### Every step -/

/-- A step that is no reset is a move other than `rst`, or an edge: a move of the core other than `rst`, if any, then the
ports' part. -/
theorem step_cases_of_not_reset {s t : State} (hr : resetEvent s = false) (h : step s = .next t) :
    (∃ m, m ≠ .reset ∧ nextEvent s = .move m ∧ runMove m (takeEvent s) = .next t) ∨
      ∃ p u, nextEvent s = .edge p ∧ p.rst = false ∧ CoreStepOfEdge p s u ∧ t = portPart p (takeEvent s) u := by
  cases he : nextEvent s with
  | move m => exact .inl ⟨m, ne_reset_of_resetEvent he hr, rfl, step_of_move he h⟩
  | edge p =>
    have hr : p.rst = false := (resetEvent_of_edge he).symm.trans hr
    obtain ⟨u, hu, ht⟩ := step_of_edge he hr h
    exact .inr ⟨p, u, rfl, hr, hu, ht⟩

theorem ne_reset_of_coreMove {p : PortsIn} {s : State} {m : Move} (h : coreMove p s = [m]) : m ≠ .reset := by
  rintro rfl
  obtain he | ⟨m, hm, he⟩ := coreMove_cases p s
  · cases he.symm.trans h
  · cases he.symm.trans h
    cases hm

/-- A property of two states that the moves other than `rst` have, and the ports' part keeps, is one every step has that is no
reset. -/
theorem rel_step {R : State → State → Prop} {s t : State}
    (hself : R (takeEvent s) (takeEvent s))
    (hmove : ∀ m u, m ≠ .reset → runMove m (takeEvent s) = .next u → R (takeEvent s) u)
    (hports : ∀ p u, R (takeEvent s) u → R (takeEvent s) (portPart p (takeEvent s) u))
    (hr : resetEvent s = false) (h : step s = .next t) : R (takeEvent s) t := by
  obtain ⟨m, hm, -, h⟩ | ⟨p, u, -, -, hu, rfl⟩ := step_cases_of_not_reset hr h
  · exact hmove m t hm h
  · refine hports p u ?_
    obtain ⟨-, rfl⟩ | ⟨m, hm, hu⟩ := hu
    · exact hself
    · exact hmove m u (ne_reset_of_coreMove hm) hu

section
variable {s t : State} (hr : resetEvent s = false) (h : step s = .next t)
include hr h

theorem proceeds_step (hb : s.phase ≠ .idle) : Proceeds s t := by
  have hb' : (takeEvent s).phase ≠ .idle := by simpa using hb
  exact proceeds_takeEvent (rel_step (proceeds_of_core (goesOn_of_core hb')) (fun _ _ => proceeds_runMove hb')
    (fun p _ => proceeds_portPart p) hr h)

theorem grants_step (hi : s.phase = .idle) : Grants s t := by
  have hi' : (takeEvent s).phase = .idle := (takeEvent_phase s).trans hi
  exact grants_takeEvent (rel_step (grants_of_core hi') (fun _ _ => grants_runMove hi') (fun p _ => grants_portPart p)
    hr h)

end

section
variable {s t : State} (hb : s.phase ≠ .idle) (hr : resetEvent s = false) (h : step s = .next t)
include hb hr h

theorem goesOn_step (ht : t.phase ≠ .idle) : GoesOn s t := by
  obtain ⟨hg, -⟩ | ⟨r, -, hd⟩ := proceeds_step hr h hb
  · exact hg
  · exact absurd hd.idle ht

theorem delivers_step (ht : t.phase = .idle) : ∃ r, EndsWith s r ∧ Delivers s.owner r s t := by
  obtain ⟨hg, -⟩ | hd := proceeds_step hr h hb
  · exact absurd ht hg.inFlight
  · exact hd

end

end Sys2Proof.Machine
end

section
/-!
The rules of a transaction in flight (42_transaction_engine R171 to R185): where it can lead, what it delivers and to whom, what
goes on the wire, and that a step of the sequencer ends it once its deadline has passed.
-/

namespace Sys2Proof.Machine

/-! ### The results -/

/-- A value, or one of the classes a transaction in flight can end in (60_exceptions R212, R213). -/
def IsTransactionResult (r : Result) : Prop :=
  (∃ v, r = okResult v) ∨
    ∃ st info, r = errResult st info ∧ st ≠ .ok ∧ st ≠ .length ∧ st ≠ .illegalOpcode

/-- Six bytes are an ACK, or fail one of the checks behind the length, or are a NAK (40_frame_codec R128). -/
theorem isTransactionResult_parseResponse (f : Frame) : IsTransactionResult (parseResponse f.toList) := by
  by_cases hm : f.b0 ≠ stx ∨ f.b4 ≠ etx
  · exact .inr ⟨_, _, parseResponse_of_wrong_marker hm, by decide⟩
  · simp only [not_or, not_not] at hm
    obtain ⟨h0, h4⟩ := hm
    by_cases h5 : f.b1 ^^^ f.b2 ^^^ f.b3 = f.b5
    · have hr := parseResponse_frameWith f.b1 f.b2 f.b3
      rw [← eq_frameWith h0 h4 h5] at hr
      split_ifs at hr
      · exact .inl ⟨_, hr⟩
      · exact .inr ⟨_, _, hr, by decide⟩
      · exact .inr ⟨_, _, hr, by decide⟩
    · exact .inr ⟨_, _, parseResponse_of_wrong_checksum h0 h4 h5, by decide⟩

theorem isTransactionResult_of_endsWith {s : State} {r : Result} (h : EndsWith s r) : IsTransactionResult r := by
  cases h with
  | decoded hp => exact isTransactionResult_parseResponse s.rxBuf
  | _ => exact .inr ⟨_, _, rfl, by decide⟩

theorem rspWaits_of_rspOf {i : Nat} {r : Rsp} {s : State} (h : rspOf i s = some r) (hv : r.valid = true) :
    rspWaits i s = true :=
  (rspWaits_iff i s).2 ⟨r, h, hv⟩

theorem rspWaits_owner_of_coherent {s : State} (h : Coherent s) (hb : s.phase ≠ .idle) : rspWaits s.owner s = false := by
  obtain ⟨-, -, -, ho, -, -⟩ := h
  obtain ⟨-, -, -, hw⟩ := ho hb
  exact hw

theorem isOpen_of_coherent {s : State} (h : Coherent s) (hb : s.phase ≠ .idle) : s.isOpen = true := by
  obtain ⟨-, -, -, ho, -, -⟩ := h
  exact (ho hb).1

/-- From a state that meets the invariant the result is in the owner's latch after the step that ends the transaction. -/
theorem rspOf_owner_step {s t : State} (hc : Coherent s) (hb : s.phase ≠ .idle) (hr : resetEvent s = false)
    (h : step s = .next t) (ht : t.phase = .idle) : ∃ r, EndsWith s r ∧ rspOf s.owner t = some (delivered r) := by
  obtain ⟨r, he, hd⟩ := delivers_step hb hr h ht
  exact ⟨r, he, hd.rsp (rspWaits_owner_of_coherent hc hb)⟩

theorem rspWaits_owner_step {s t : State} (hc : Coherent s) (hb : s.phase ≠ .idle) (hr : resetEvent s = false)
    (h : step s = .next t) (ht : t.phase = .idle) : rspWaits s.owner t = true := by
  obtain ⟨r, -, hd⟩ := rspOf_owner_step hc hb hr h ht
  exact rspWaits_of_rspOf hd rfl

/-! ### The transition table -/

/-- Settles O40: with the lock free a step frees it again or starts; in flight it stays in its phase, goes to the next, or ends
with a result of its phase. The counts are those the invariant gives the phase it leads to. -/
theorem phaseTransitions : Obligations.PhaseTransitions := by
  intro s t hc hr h
  obtain ⟨-, ⟨hwrite, hread, hdecode⟩, -⟩ := stepKeepsCoherent s t hc h
  have hidle : s.phase = .idle → t.phase = .idle ∨ Starts s t := by
    intro hi
    obtain ⟨ht, -⟩ | ⟨_, _, -, -, -, hd⟩ := grants_step hr h hi
    · exact ht
    · exact .inl hd.idle
  have hflight : s.phase ≠ .idle → GoesOn s t ∨
      t.phase = .idle ∧ ∃ r, EndsWith s r ∧ rspOf s.owner t = some (delivered r) := by
    intro hb
    by_cases ht : t.phase = .idle
    · exact .inr ⟨ht, rspOf_owner_step hc hb hr h ht⟩
    · exact .inl (goesOn_step hb hr h ht)
  refine ⟨fun hi => ?idle, fun hp => ?write, fun hp => ?read, fun hp => ?decode⟩
  case idle => exact (hidle hi).imp_right fun ⟨hp, hl, htx, hrx, hd, _⟩ => ⟨hp, hl, htx, hrx, hd⟩
  case write =>
    obtain ⟨-, ht | ⟨-, ht⟩ | ⟨hn, -⟩, -⟩ | ⟨ht, r, he, hd⟩ := hflight (by simp [hp])
    · exact .inl ⟨ht.trans hp, (hwrite (ht.trans hp)).1⟩
    · exact .inr (.inl ⟨ht, (hread ht).1⟩)
    · simp [hp] at hn
    · refine .inr (.inr ⟨ht, _, hd, rfl, ?_⟩)
      obtain ⟨hle, rfl⟩ | ⟨hlt, rfl⟩ := endsWith_of_write he hp
      · exact .inl ⟨hle, rfl, rfl⟩
      · exact .inr ⟨hlt, rfl⟩
  case read =>
    obtain ⟨-, ht | ⟨hn, -⟩ | ⟨-, ht⟩, -⟩ | ⟨ht, r, he, hd⟩ := hflight (by simp [hp])
    · exact .inl ⟨ht.trans hp, (hread (ht.trans hp)).2⟩
    · simp [hp] at hn
    · exact .inr (.inl ⟨ht, (hdecode ht).2⟩)
    · refine .inr (.inr ⟨ht, _, hd, rfl, ?_⟩)
      obtain ⟨hle, rfl⟩ | ⟨hlt, rfl⟩ := endsWith_of_read he hp
      · exact .inl ⟨hle, rfl, rfl⟩
      · exact .inr ⟨hlt, rfl⟩
  case decode =>
    obtain ⟨-, ht | ⟨hn, -⟩ | ⟨hn, -⟩, -⟩ | ⟨ht, r, he, hd⟩ := hflight (by simp [hp])
    · exact .inl (ht.trans hp)
    · simp [hp] at hn
    · simp [hp] at hn
    · obtain rfl := endsWith_of_decode he hp
      exact .inr ⟨ht, _, hd, rfl, rfl, rfl, rfl⟩

/-! ### No cancellation, no other grant -/

/-- A completion touches no latch but the owner's response (42_transaction_engine R181). -/
theorem latches_of_complete {r : Result} {s u t : State} {j : Nat} (h : complete r u = .next t)
    (hc : u.callers = s.callers) : pendOf j t = pendOf j s ∧ (u.owner ≠ j → rspOf j t = rspOf j s) := by
  refine ⟨(pendOf_of_complete h j).trans (pendOf_of_callers hc j), fun hn => ?_⟩
  rw [rspOf_of_complete h, if_neg hn]
  exact rspOf_of_callers hc j

theorem owner_ne_of_not_inFlight {j : Nat} {s : State} (hb : s.phase ≠ .idle) (h : inFlight j s = false) :
    s.owner ≠ j := by
  simpa [inFlight, hb] using h

/-- A move of the core touches no latch of a caller that it neither grants nor serves (42_transaction_engine R168, R181). -/
theorem latches_of_isCoreMove {m : Move} {s t : State} {j : Nat} (hm : isCoreMove m = true)
    (hg : mayGrant j s = false) (h : runMove m s = .next t) :
    pendOf j t = pendOf j s ∧ (inFlight j s = false → rspOf j t = rspOf j s) := by
  have hserved : ∀ {r : Result} {u : State}, complete r u = .next t → u.callers = s.callers → s.phase ≠ .idle →
      u.owner = s.owner → pendOf j t = pendOf j s ∧ (inFlight j s = false → rspOf j t = rspOf j s) := by
    intro r u hr hc hb hw
    exact (latches_of_complete hr hc).imp_right fun hk hn => hk (hw ▸ owner_ne_of_not_inFlight hb hn)
  cases m with
  | grant i =>
    obtain ⟨-, he⟩ | ⟨p, hi, -, -, hcase⟩ := grantStep_cases i s
    · cases he.symm.trans h; exact ⟨rfl, fun _ => rfl⟩
    · have hij : i ≠ j := by
        rintro rfl
        simp [hg] at hi
      have hlatch : pendOf j (latchRequest i p s) = pendOf j s := by rw [pendOf_latchRequest, if_neg hij]
      obtain ⟨-, he⟩ | ⟨-, he⟩ := hcase
      · cases he.symm.trans h; exact ⟨hlatch, fun _ => rspOf_latchRequest i j p s⟩
      · obtain ⟨hpend, hrsp⟩ := latches_of_complete (he.symm.trans h) rfl
        exact ⟨hpend.trans hlatch, fun _ => (hrsp hij).trans (rspOf_latchRequest i j p s)⟩
  | write n err dur =>
    obtain ⟨-, he⟩ | ⟨hp, -, he⟩ | ⟨hp, -, -, he⟩ | ⟨-, -, -, he⟩ := writeStep_cases n err dur s
    · cases he.symm.trans h; exact ⟨rfl, fun _ => rfl⟩
    · exact hserved (he.symm.trans h) rfl (by simp [hp]) rfl
    · exact hserved (he.symm.trans h) rfl (by simp [hp]) rfl
    · cases he.symm.trans h; exact ⟨rfl, fun _ => rfl⟩
  | read n err dur =>
    obtain ⟨-, he⟩ | ⟨hp, -, he⟩ | ⟨hp, -, -, he⟩ | ⟨-, -, -, he⟩ := readStep_cases n err dur s
    · cases he.symm.trans h; exact ⟨rfl, fun _ => rfl⟩
    · exact hserved (he.symm.trans h) rfl (by simp [hp]) rfl
    · exact hserved (he.symm.trans h) rfl (by simp [hp]) rfl
    · cases he.symm.trans h; exact ⟨rfl, fun _ => rfl⟩
  | decode =>
    obtain ⟨-, he⟩ | ⟨hp, r, he, -⟩ := decodeStep_cases s
    · cases he.symm.trans h; exact ⟨rfl, fun _ => rfl⟩
    · exact hserved (he.symm.trans h) rfl (by simp [hp]) rfl
  | _ => cases hm

theorem pendKept_runMove {m : Move} {s t : State} (hb : s.phase ≠ .idle) (hm : m ≠ .reset)
    (h : runMove m s = .next t) : PendKept s t := by
  by_cases hc : isCoreMove m = true
  · exact pendKept_of_pendOf fun j => (latches_of_isCoreMove hc (mayGrant_of_inFlight j hb) h).1
  · cases m with
    | reset => exact absurd rfl hm
    | request i op val => cases h; exact pendKept_requestStep i op val s
    | configure c => cases h; exact pendKept_of_pendOf fun j => pendOf_of_callers (by simp) j
    | openChannel => cases h; exact pendKept_of_pendOf fun j => pendOf_openStep j s
    | response i => cases h; exact pendKept_of_pendOf fun j => pendOf_responseStep i j s
    | device _ | advance _ => cases h; exact pendKept_of_pendOf fun _ => rfl
    | grant _ | write _ _ _ | read _ _ _ | decode => exact absurd rfl hc

/-- While a transaction is in flight no request is granted or withdrawn (42_transaction_engine R185). -/
theorem pendKept_step {s t : State} (hb : s.phase ≠ .idle) (hr : resetEvent s = false) (h : step s = .next t) :
    PendKept s t := by
  have hb' : (takeEvent s).phase ≠ .idle := by simpa using hb
  have hkept : PendKept (takeEvent s) t := rel_step (R := PendKept) (fun _ _ => rfl) (fun _ _ => pendKept_runMove hb')
    (fun p u hu => hu.trans (pendKept_afterMoves (portMoves p (takeEvent s)) u)) hr h
  simpa [PendKept] using hkept

/-- Settles O41: a step that leaves a transaction in flight lets the same one go on; one that ends it delivers to its owner; and
neither touches a request that waits. -/
theorem transactionUndisturbed : Obligations.TransactionUndisturbed := by
  intro s t hb hr h
  refine ⟨fun ht => ?_, fun ht hc => rspWaits_owner_step hc hb hr h ht, pendKept_step hb hr h⟩
  obtain ⟨-, -, hw, ho, hv, hx, hd, htx, hrx⟩ := goesOn_step hb hr h ht
  exact ⟨hw, ho, hv, hx, hd, htx, hrx⟩

/-! ### The wire -/

/-- Settles O43: a step that grants sends nothing, any other sends the next bytes of the frame in flight. -/
theorem wireGetsNextBytesOnly : Obligations.WireGetsNextBytesOnly := by
  intro s t h
  have ht := step_transmits h
  cases hg : grantedNext s with
  | none =>
    rw [hg] at ht
    obtain ⟨k, hk, hw, hwrite, hd, hf⟩ := ht
    exact ⟨k, hk, hw, hwrite, hd, fun _ hb => (hf hb).2.1⟩
  | some r =>
    rw [hg] at ht
    obtain ⟨hi, hw, -⟩ := ht
    exact ⟨0, Nat.zero_le _, by simpa using hw, fun _ => rfl, fun _ => rfl, fun hp => by simp [hi] at hp⟩

/-! ### Delivery -/

theorem eq_delivered {o : Nat} {q : Result} {r : Rsp} {s t : State} (hd : Delivers o q s t)
    (hw : rspWaits o s = false) (hr : rspOf o t = some r) : r = delivered q :=
  Option.some_injective _ (hr.symm.trans (hd.rsp hw))

/-- Where a response comes from that a caller has after a step: it was there before, the transaction in flight ended with it, or
the caller's opcode was refused; a caller that gets a new one had none (42_transaction_engine R169, R181). -/
theorem rspOf_step_cases {j : Nat} {r : Rsp} {s t : State} (hc : Coherent s) (hr : resetEvent s = false)
    (h : step s = .next t) (hj : rspOf j t = some r) (hv : r.valid = true) :
    rspOf j s = some r ∨
      rspWaits j s = false ∧ t.phase = .idle ∧
        ((s.phase ≠ .idle ∧ j = s.owner ∧ ∃ q, EndsWith s q ∧ r = delivered q) ∨
          (s.phase = .idle ∧ ∃ p, pendOf j s = some p ∧ p.valid = true ∧ legalOpcode p.op = false ∧
            r = delivered (errResult .illegalOpcode (infoIllegalOpcode p.op)))) := by
  by_cases hb : s.phase = .idle
  · obtain ⟨-, hk⟩ | ⟨i, p, hp, hpv, hl, hd⟩ := grants_step hr h hb
    · exact .inl (hk j r hj hv)
    · by_cases hji : j = i
      · subst hji
        obtain ⟨-, -, -, -, hports, -⟩ := hc
        have hw : rspWaits j s = false := (portsOk_iff s).1 hports j ((waits_iff j s).2 ⟨p, hp, hpv⟩)
        exact .inr ⟨hw, hd.idle, .inr ⟨hb, p, hp, hpv, hl, eq_delivered hd hw hj⟩⟩
      · exact .inl (hd.others j hji r hj hv)
  · obtain ⟨-, hk⟩ | ⟨q, he, hd⟩ := proceeds_step hr h hb
    · exact .inl (hk j r hj hv)
    · by_cases hjo : j = s.owner
      · subst hjo
        have hw := rspWaits_owner_of_coherent hc hb
        exact .inr ⟨hw, hd.idle, .inl ⟨hb, rfl, q, he, eq_delivered hd hw hj⟩⟩
      · exact .inl (hd.others j hjo r hj hv)

/-- Settles O49: a response that was there is kept; a new one is a transaction's result or a refusal. -/
theorem resultGoesToItsCaller : Obligations.ResultGoesToItsCaller := by
  intro s t hc hr h j r hj hv
  obtain hs | ⟨hw, hi, hnew⟩ := rspOf_step_cases hc hr h hj hv
  · have hw := rspWaits_of_rspOf hs hv
    exact ⟨fun _ => hs, fun hn => by simp [hw] at hn⟩
  · refine ⟨fun hn => by simp [hw] at hn, fun _ => ?_⟩
    obtain ⟨hb, rfl, q, he, rfl⟩ | ⟨hb, p, hp, hpv, hl, rfl⟩ := hnew
    · obtain ⟨v, rfl⟩ | ⟨st, info, rfl, hok, hlen, hill⟩ := isTransactionResult_of_endsWith he
      · exact ⟨hi, by simp [delivered, okResult], fun hn => absurd rfl hn, fun _ => rfl,
          .inl ⟨hb, rfl, by simp [delivered, okResult]⟩⟩
      · exact ⟨hi, hlen, fun _ => rfl, fun hn => absurd hn hok, .inl ⟨hb, rfl, hill⟩⟩
    · exact ⟨hi, by simp [delivered, errResult], fun _ => rfl, fun hn => by simp [delivered, errResult] at hn,
        .inr ⟨hb, rfl, p, hp, hpv, hl, rfl⟩⟩

/-! ### The machine goes on -/

theorem exists_next_of_complete {o : Out} {r : Result} {s : State} (he : o = complete r s)
    (h : s.owner < s.callers.length) : ∃ t, o = .next t :=
  ⟨_, he.trans (complete_of_lt r h)⟩

/-- From a state that meets the invariant every move has a next state: what a completion delivers to has a port. -/
theorem exists_runMove (m : Move) {s : State} (hc : Coherent s) : ∃ t, runMove m s = .next t := by
  have hown : s.phase ≠ .idle → s.owner < s.callers.length := by
    obtain ⟨-, -, -, ho, -, -⟩ := hc
    exact fun hb => (ho hb).2.1
  cases m with
  | grant i =>
    obtain ⟨-, he⟩ | ⟨p, hg, -, -, ⟨-, he⟩ | ⟨-, he⟩⟩ := grantStep_cases i s
    · exact ⟨_, he⟩
    · exact ⟨_, he⟩
    · obtain ⟨-, -, hw⟩ := (mayGrant_iff i s).1 hg
      exact exists_next_of_complete he (by simpa using lt_of_waits hw)
  | write n err dur =>
    obtain ⟨-, he⟩ | ⟨hp, -, he⟩ | ⟨hp, -, -, he⟩ | ⟨-, -, -, he⟩ := writeStep_cases n err dur s
    · exact ⟨_, he⟩
    · exact exists_next_of_complete he (hown (by simp [hp]))
    · exact exists_next_of_complete he (hown (by simp [hp]))
    · exact ⟨_, he⟩
  | read n err dur =>
    obtain ⟨-, he⟩ | ⟨hp, -, he⟩ | ⟨hp, -, -, he⟩ | ⟨-, -, -, he⟩ := readStep_cases n err dur s
    · exact ⟨_, he⟩
    · exact exists_next_of_complete he (hown (by simp [hp]))
    · exact exists_next_of_complete he (hown (by simp [hp]))
    · exact ⟨_, he⟩
  | decode =>
    obtain ⟨-, he⟩ | ⟨hp, r, he, -⟩ := decodeStep_cases s
    · exact ⟨_, he⟩
    · exact exists_next_of_complete he (hown (by simp [hp]))
  | _ => exact ⟨_, rfl⟩

/-- From a state that meets the invariant every step has a next state (60_exceptions R221). -/
theorem exists_step {s : State} (hc : Coherent s) : ∃ t, step s = .next t := by
  have hc' := coherent_takeEvent hc
  unfold step
  cases nextEvent s with
  | move m => exact exists_runMove m hc'
  | edge p =>
    change ∃ t, clockEdge p (takeEvent s) = .next t
    cases hr : p.rst with
    | true => exact ⟨_, clockEdge_of_rst hr _⟩
    | false =>
      rw [clockEdge_of_not_rst hr]
      obtain he | ⟨m, -, he⟩ := coreMove_cases p (takeEvent s) <;> rw [he]
      · exact ⟨_, rfl⟩
      · obtain ⟨u, hu⟩ := exists_runMove m hc'
        exact ⟨_, by rw [runMoves_singleton, hu, andThen_next]⟩

/-! ### Steps of the sequencer -/

/-- A step of the sequencer that the phase enables (42_transaction_engine R173, R174, R180). -/
def isSequencerMove (m : Move) (s : State) : Bool :=
  match m with
  | .write _ _ _ => s.phase == .write
  | .read _ _ _ => s.phase == .read
  | .decode => s.phase == .decode
  | _ => false

theorem sequencerEvent_of_move {m : Move} {s : State} (he : nextEvent s = .move m) :
    sequencerEvent s = isSequencerMove m s := by
  unfold sequencerEvent
  rw [he]
  cases m <;> rfl

theorem sequencerEvent_of_edge {p : PortsIn} {s : State} (he : nextEvent s = .edge p) (hr : p.rst = false)
    (hb : s.phase ≠ .idle) : sequencerEvent s = true := by
  simp [sequencerEvent, he, hr, hb]

theorem not_resetEvent_of_sequencerEvent {s : State} (h : sequencerEvent s = true) : resetEvent s = false := by
  unfold sequencerEvent at h
  unfold resetEvent
  cases he : nextEvent s with
  | move m =>
    rw [he] at h
    cases m with
    | reset => cases h
    | _ => rfl
  | edge p =>
    rw [he] at h
    simpa using (Bool.and_eq_true_iff.1 h).1

/-- In flight the core's step at an edge is that of its phase (42_transaction_engine R186). -/
theorem coreMove_of_inFlight (p : PortsIn) {s : State} (hb : s.phase ≠ .idle) :
    ∃ m, coreMove p s = [m] ∧ isSequencerMove m s = true := by
  unfold coreMove
  cases hp : s.phase with
  | idle => exact absurd hp hb
  | write => exact ⟨_, rfl, by simp [isSequencerMove, hp]⟩
  | read => exact ⟨_, rfl, by simp [isSequencerMove, hp]⟩
  | decode => exact ⟨_, rfl, by simp [isSequencerMove, hp]⟩

/-- A step of the sequencer that does not end the transaction is made before the deadline, and is no decode step
(42_transaction_engine R171, R180). -/
theorem runMove_of_isSequencerMove {m : Move} {s t : State} (hm : isSequencerMove m s = true)
    (h : runMove m s = .next t) (ht : t.phase ≠ .idle) : s.now < s.deadline ∧ s.phase ≠ .decode := by
  cases m with
  | write n err dur =>
    have hp : s.phase = .write := by simpa [isSequencerMove] using hm
    obtain ⟨hn, -⟩ | ⟨-, -, he⟩ | ⟨-, hd, -⟩ | ⟨-, hd, -⟩ := writeStep_cases n err dur s
    · exact absurd hp hn
    · exact absurd (phase_of_complete (he.symm.trans h)) ht
    · exact ⟨hd, by simp [hp]⟩
    · exact ⟨hd, by simp [hp]⟩
  | read n err dur =>
    have hp : s.phase = .read := by simpa [isSequencerMove] using hm
    obtain ⟨hn, -⟩ | ⟨-, -, he⟩ | ⟨-, hd, -⟩ | ⟨-, hd, -⟩ := readStep_cases n err dur s
    · exact absurd hp hn
    · exact absurd (phase_of_complete (he.symm.trans h)) ht
    · exact ⟨hd, by simp [hp]⟩
    · exact ⟨hd, by simp [hp]⟩
  | decode =>
    have hp : s.phase = .decode := by simpa [isSequencerMove] using hm
    exact absurd (phase_of_complete ((decodeStep_eq hp).symm.trans h)) ht
  | _ => cases hm

theorem isSequencerMove_takeEvent (m : Move) (s : State) : isSequencerMove m (takeEvent s) = isSequencerMove m s := by
  cases m <;> simp [isSequencerMove]

theorem step_of_sequencerEvent {s t : State} (hs : sequencerEvent s = true) (hb : s.phase ≠ .idle)
    (h : step s = .next t) (ht : t.phase ≠ .idle) : s.now < s.deadline ∧ s.phase ≠ .decode := by
  have hmove : ∀ m u, isSequencerMove m s = true → runMove m (takeEvent s) = .next u → u.phase ≠ .idle →
      s.now < s.deadline ∧ s.phase ≠ .decode := by
    intro m u hm hu hb
    simpa using runMove_of_isSequencerMove ((isSequencerMove_takeEvent m s).trans hm) hu hb
  obtain ⟨m, -, he, h⟩ | ⟨p, u, he, -, hu, rfl⟩ :=
    step_cases_of_not_reset (not_resetEvent_of_sequencerEvent hs) h
  · exact hmove m t ((sequencerEvent_of_move he).symm.trans hs) h ht
  · obtain ⟨m, hcm, hm⟩ := coreMove_of_inFlight p hb
    obtain ⟨hnil, -⟩ | ⟨m', hcm', hu⟩ := hu
    · cases hcm.symm.trans hnil
    · cases hcm.symm.trans hcm'
      exact hmove m u hm hu (by simpa [portPart] using ht)

/-- Settles O50: a step of the sequencer that leaves the transaction in flight is made before the deadline, in the write or the
read phase. -/
theorem sequencerEndsExpiredTransaction : Obligations.SequencerEndsExpiredTransaction := by
  intro s hc hb hd hs
  obtain ⟨t, h⟩ := exists_step hc
  have ht : t.phase = .idle := by
    by_contra ht
    obtain ⟨hlt, hnd⟩ := step_of_sequencerEvent hs hb h ht
    exact hd.elim (fun hle => absurd hlt (by omega)) hnd
  exact ⟨t, h, ht, rspWaits_owner_step hc hb (not_resetEvent_of_sequencerEvent hs) h ht⟩

end Sys2Proof.Machine
end

section
/-!
Termination (42_transaction_engine R187, R229 of 60_exceptions): how far past its deadline a transaction in flight can be, and
that it completes, in the abstract semantics once time has passed that bound, at the clock within the ticks left and one.
-/

namespace Sys2Proof.Machine

/-! ### Time in flight -/

/-- In flight no move takes `NOW` past the deadline by more than the longest attempt: an attempt begins before the deadline,
and an advance is cut to what an attempt admits (42_transaction_engine R171, 20_memory R74, R76). -/
theorem now_runMove_le {m : Move} {s t : State} {b : Nat} (hb : s.phase ≠ .idle) (hw : s.cfg.tChWrite = some b)
    (h : runMove m s = .next t) : t.now ≤ max s.now (s.deadline + max s.cfg.tChRead b) := by
  cases m with
  | write n err dur =>
    have hd := writeDuration_le hw dur
    obtain ⟨-, he⟩ | ⟨-, -, he⟩ | ⟨-, hlt, -, he⟩ | ⟨-, hlt, -, he⟩ := writeStep_cases n err dur s
    · cases he.symm.trans h; omega
    · rw [now_of_complete (he.symm.trans h)]; omega
    · rw [now_of_complete (he.symm.trans h), chWrite_now]; omega
    · cases he.symm.trans h
      rw [countSent_now, chWrite_now]
      omega
  | read n err dur =>
    have hd := readDuration_le dur s
    obtain ⟨-, he⟩ | ⟨-, -, he⟩ | ⟨-, hlt, -, he⟩ | ⟨-, hlt, -, he⟩ := readStep_cases n err dur s
    · cases he.symm.trans h; omega
    · rw [now_of_complete (he.symm.trans h)]; omega
    · rw [now_of_complete (he.symm.trans h), chRead_now]; omega
    · cases he.symm.trans h
      rw [storeReply_now, chRead_now]
      omega
  | advance k =>
    obtain ⟨-, -, hadm⟩ := admittedTime_le k s
    obtain ⟨hle, hzero⟩ := hadm hb b hw
    cases h
    rw [advanceTime_now]
    by_cases hlt : s.deadline ≤ s.now
    · rw [hzero hlt]; omega
    · omega
  | _ => exact le_max_of_le_left (nowWithin_runMove h).2

/-- The move that begins a transaction takes no time. -/
theorem now_le_of_start {m : Move} {s t : State} (hi : s.phase = .idle) (h : runMove m s = .next t)
    (ht : t.phase ≠ .idle) : t.now ≤ s.now := by
  cases m with
  | write n err dur =>
    cases (writeStep_of_ne n err dur (by simp [hi])).symm.trans h
    exact absurd hi ht
  | read n err dur =>
    cases (readStep_of_ne n err dur (by simp [hi])).symm.trans h
    exact absurd hi ht
  | advance k => cases h; exact absurd hi ht
  | _ => exact (nowWithin_runMove h).2

theorem not_resetEvent_of_inFlight {s t : State} (h : step s = .next t) (ht : t.phase ≠ .idle) :
    resetEvent s = false := by
  cases he : nextEvent s with
  | move m =>
    have h := step_of_move he h
    cases m with
    | reset => cases h; exact absurd rfl ht
    | _ => simp only [resetEvent, he]
  | edge p =>
    cases hr : p.rst with
    | true =>
      obtain rfl := step_of_rst he hr h
      simp at ht
    | false => exact (resetEvent_of_edge he).trans hr

/-- In flight the configuration is fixed, since the channel is open (10_state R27, 42_transaction_engine R168). -/
theorem cfg_of_step {s t : State} (hc : Coherent s) (hb : s.phase ≠ .idle) (hr : resetEvent s = false)
    (h : step s = .next t) : t.cfg = s.cfg :=
  (openUntilReset s t (isOpen_of_coherent hc hb) hr h).2

theorem now_le_of_starts {s t : State} (hi : s.phase = .idle) (ht : t.phase ≠ .idle) (h : step s = .next t) :
    t.now ≤ s.now + 1 := by
  cases he : nextEvent s with
  | move m =>
    have hm := now_le_of_start (by simpa using hi) (step_of_move he h) ht
    rw [takeEvent_now] at hm
    omega
  | edge p => exact (now_of_edge he h).le

/-- In flight, unless it is an edge, a step leaves `NOW` within the bound of `Timely`. -/
theorem now_step_le {s t : State} {b : Nat} (hb : s.phase ≠ .idle) (hw : s.cfg.tChWrite = some b)
    (he : ∀ p, nextEvent s ≠ .edge p) (h : step s = .next t) :
    t.now ≤ max s.now (s.deadline + max s.cfg.tChRead b) := by
  cases hm : nextEvent s with
  | move m =>
    have hle := now_runMove_le (b := b) (by simpa using hb) (by simpa using hw) (step_of_move hm h)
    rwa [takeEvent_now, takeEvent_deadline, takeEvent_cfg] at hle
  | edge p => exact absurd hm (he p)

/-- Settles O51: a start is at most one tick before its deadline is set; in flight a move is bounded by the longest attempt, and
an edge that does not end the transaction comes before the deadline. -/
theorem stepKeepsTimely : Obligations.StepKeepsTimely := by
  intro s t hc hok htimely h ht b hb
  have hr := not_resetEvent_of_inFlight h ht
  by_cases hi : s.phase = .idle
  · have hd : t.deadline = s.now + s.cfg.tDeadline := by
      obtain ⟨hid | hs, -⟩ | ⟨_, _, -, -, -, hd⟩ := grants_step hr h hi
      · exact absurd hid ht
      · exact hs.deadline
      · exact absurd hd.idle ht
    have hnow := now_le_of_starts hi ht h
    have hpos := hok.1
    omega
  · rw [cfg_of_step hc hi hr h] at hb ⊢
    rw [(goesOn_step hi hr h ht).deadline]
    cases he : nextEvent s with
    | move m =>
      have hle := now_step_le hi hb (by simp [he]) h
      have hbefore := htimely hi b hb
      omega
    | edge p =>
      have hr : p.rst = false := (resetEvent_of_edge he).symm.trans hr
      have hlt := (step_of_sequencerEvent (sequencerEvent_of_edge he hr hi) hi h ht).1
      rw [now_of_edge he h]
      omega

/-! ### The abstract semantics -/

theorem runSteps_succ {s u : State} (h : step s = .next u) (k : Nat) : runSteps (k + 1) s = runSteps k u := by
  simp [runSteps, h]

theorem noResetIn_succ {s u : State} {k : Nat} (h : step s = .next u) (hn : noResetIn (k + 1) s = true) :
    resetEvent s = false ∧ noResetIn k u = true := by
  simpa [noResetIn, h] using hn

/-- Settles O52, by induction on the steps: a step either ends the transaction, or leaves it in flight, timely and with the same
bound, which the last state is past. -/
theorem abstractTransactionCompletes : Obligations.AbstractTransactionCompletes := by
  intro s t n b
  induction n generalizing s with
  | zero =>
    intro _ _ htimely hb hw _ h hlate
    cases h
    exact absurd (htimely hb b hw) (Nat.not_le.2 hlate)
  | succ n ih =>
    intro hc hok htimely hb hw hn h hlate
    obtain ⟨u, hu, h⟩ := andThen_eq_next.1 h
    obtain ⟨hr, hn⟩ := noResetIn_succ hu hn
    have hbound := htimely hb b hw
    by_cases hi : u.phase = .idle
    · refine ⟨0, s, u, Nat.succ_pos n, rfl, hb, rfl, hbound, hu, hi, rspWaits_owner_step hc hb hr hu hi, fun he => ?_⟩
      exact (now_step_le hb hw he hu).trans (max_le hbound (Nat.le_refl _))
    · have hg := goesOn_step hb hr hu hi
      have hcfg := cfg_of_step hc hb hr hu
      have hflight := ih u (stepKeepsCoherent s u hc hu) (hcfg ▸ hok) (stepKeepsTimely s u hc hok htimely hu) hi
        (hcfg ▸ hw) hn h
      rw [hg.deadline, hg.owner, hcfg] at hflight
      obtain ⟨j, v, w, hj, hv, hrest⟩ := hflight hlate
      exact ⟨j + 1, v, w, Nat.succ_lt_succ hj, (runSteps_succ hu j).trans hv, hrest⟩

/-! ### The clocked binding -/

theorem script_takeEvent (s : State) : (takeEvent s).script = s.script.tail := by
  unfold takeEvent
  cases h : s.script with
  | nil => simp
  | cons e rest => rfl

theorem script_of_complete {r : Result} {s t : State} (h : complete r s = .next t) : t.script = s.script := by
  obtain ⟨-, rfl⟩ := complete_eq_next h
  rfl

theorem script_runMove {m : Move} {s t : State} (h : runMove m s = .next t) : t.script = s.script := by
  cases m with
  | grant i =>
    obtain ⟨-, he⟩ | ⟨p, -, -, -, ⟨-, he⟩ | ⟨-, he⟩⟩ := grantStep_cases i s
    · cases he.symm.trans h; rfl
    · cases he.symm.trans h; rfl
    · exact (script_of_complete (he.symm.trans h) :)
  | write n err dur =>
    obtain ⟨-, he⟩ | ⟨-, -, he⟩ | ⟨-, -, -, he⟩ | ⟨-, -, -, he⟩ := writeStep_cases n err dur s
    · cases he.symm.trans h; rfl
    · exact (script_of_complete (he.symm.trans h) :)
    · exact (script_of_complete (he.symm.trans h) :)
    · cases he.symm.trans h; rfl
  | read n err dur =>
    obtain ⟨-, he⟩ | ⟨-, -, he⟩ | ⟨-, -, -, he⟩ | ⟨-, -, -, he⟩ := readStep_cases n err dur s
    · cases he.symm.trans h; rfl
    · exact (script_of_complete (he.symm.trans h) :)
    · exact (script_of_complete (he.symm.trans h) :)
    · cases he.symm.trans h; rfl
  | decode =>
    obtain ⟨-, he⟩ | ⟨-, r, he, -⟩ := decodeStep_cases s
    · cases he.symm.trans h; rfl
    · exact (script_of_complete (he.symm.trans h) :)
  | _ => cases h; simp

/-- A step takes one event off the list and adds none. -/
theorem script_step {s t : State} (h : step s = .next t) : t.script = s.script.tail := by
  rw [← script_takeEvent]
  obtain ⟨m, -, h⟩ | ⟨p, -, -, rfl⟩ | ⟨p, u, -, -, hu, rfl⟩ := step_cases h
  · exact script_runMove h
  · simp
  · obtain rfl | ⟨m, -, hu⟩ := hu
    · simp
    · simpa using script_runMove hu

theorem nextEvent_of_script {s : State} {e : Event} {rest : List Event} (h : s.script = e :: rest) :
    nextEvent s = e := by
  simp [nextEvent, h]

/-- The first of the listed events, of which the first `k + 1` are edges without reset. -/
theorem exists_edge {s : State} {k : Nat} (hlen : k + 1 ≤ s.script.length)
    (hedge : ∀ e ∈ s.script.take (k + 1), isEdge e = true) :
    ∃ p rest, s.script = .edge p :: rest ∧ p.rst = false ∧ k ≤ rest.length ∧ ∀ e ∈ rest.take k, isEdge e = true := by
  cases hs : s.script with
  | nil => simp [hs] at hlen
  | cons e rest =>
    rw [hs, List.take_succ_cons, List.forall_mem_cons] at hedge
    rw [hs, List.length_cons] at hlen
    cases e with
    | move m => cases hedge.1
    | edge p => exact ⟨p, rest, rfl, by simpa [isEdge] using hedge.1, by omega, hedge.2⟩

/-- By induction on the ticks left: an edge in flight ends the transaction, or comes before the deadline and takes one tick. -/
theorem completes_of_edges (d : Nat) {s : State} (hc : Coherent s) (hb : s.phase ≠ .idle) (hd : s.deadline - s.now = d)
    (hlen : d + 1 ≤ s.script.length) (hedge : ∀ e ∈ s.script.take (d + 1), isEdge e = true) :
    ∃ (j : Nat) (t : State), 1 ≤ j ∧ j ≤ d + 1 ∧ runSteps j s = .next t ∧ t.phase = .idle ∧
      rspWaits s.owner t = true := by
  induction d generalizing s with
  | zero =>
    obtain ⟨p, rest, hs, hr, -, -⟩ := exists_edge hlen hedge
    have hseq := sequencerEvent_of_edge (nextEvent_of_script hs) hr hb
    obtain ⟨t, h, ht, hw⟩ := sequencerEndsExpiredTransaction s hc hb (.inl (by omega)) hseq
    exact ⟨1, t, Nat.le_refl 1, Nat.le_refl 1, runSteps_succ h 0, ht, hw⟩
  | succ d ih =>
    obtain ⟨p, rest, hs, hr, hlen, hedge⟩ := exists_edge hlen hedge
    have he := nextEvent_of_script hs
    have hreset : resetEvent s = false := (resetEvent_of_edge he).trans hr
    obtain ⟨u, hu⟩ := exists_step hc
    by_cases hi : u.phase = .idle
    · exact ⟨1, u, Nat.le_refl 1, by omega, runSteps_succ hu 0, hi, rspWaits_owner_step hc hb hreset hu hi⟩
    · have hg := goesOn_step hb hreset hu hi
      have hscript : u.script = rest := by rw [script_step hu, hs, List.tail_cons]
      obtain ⟨j, t, -, hj, h, ht, hw⟩ := ih (stepKeepsCoherent s u hc hu) hi
        (by rw [hg.deadline, now_of_edge he hu]; omega) (by rwa [hscript]) (by rwa [hscript])
      exact ⟨j + 1, t, by omega, by omega, (runSteps_succ hu j).trans h, ht, hg.owner ▸ hw⟩

/-- Settles O53: `completes_of_edges` with the ticks left to the deadline. -/
theorem clockedTransactionCompletes : Obligations.ClockedTransactionCompletes :=
  fun s hc hb hlen hedge => completes_of_edges (s.deadline - s.now) hc hb rfl hlen hedge

end Sys2Proof.Machine
end

section
/-!
The clocked port binding (42_transaction_engine R186, R189, R190): what an edge without reset does at the ports of the channel
and of the callers, and how many edges a transaction takes (R187).
-/

namespace Sys2Proof.Machine

/-! ### The channel's ports -/

/-- How many bytes go out at an edge in the write phase (42_transaction_engine R190). -/
def sentAt (p : PortsIn) (s : State) : Nat := writeCount (handshakeCount p.txReady) s

/-- How many bytes come in at an edge in the read phase (42_transaction_engine R190). -/
def receivedAt (p : PortsIn) (s : State) : Nat := readCount (handshakeCount p.rxValid) s

@[simp] theorem writeCount_takeEvent (n : Nat) (s : State) : writeCount n (takeEvent s) = writeCount n s := by
  simp [writeCount]

@[simp] theorem readCount_takeEvent (n : Nat) (s : State) : readCount n (takeEvent s) = readCount n s := by
  simp [readCount, missing]

@[simp] theorem offered_takeEvent (s : State) : offered (takeEvent s) = offered s := by
  simp [offered]

@[simp] theorem writeDuration_zero (s : State) : writeDuration 0 s = 0 :=
  Nat.le_zero.1 (writeDuration_le_draw 0 s)

@[simp] theorem readDuration_zero (s : State) : readDuration 0 s = 0 := Nat.zero_min _

theorem handshakeErr_eq_ok_iff (b : Bool) : handshakeErr b = .ok ↔ b = false := by
  cases b <;> simp [handshakeErr]

theorem handshakeErr_eq_fail_iff (b : Bool) : handshakeErr b = .fail ↔ b = true := by
  cases b <;> simp [handshakeErr]

theorem handshakeCount_le_one (b : Bool) : handshakeCount b ≤ 1 := by
  cases b <;> simp [handshakeCount]

theorem sentAt_le_one (p : PortsIn) (s : State) : sentAt p s ≤ 1 :=
  (Nat.min_le_left _ _).trans (handshakeCount_le_one p.txReady)

theorem receivedAt_le_one (p : PortsIn) (s : State) : receivedAt p s ≤ 1 :=
  (Nat.min_le_left _ _).trans (handshakeCount_le_one p.rxValid)

theorem sentAt_eq {p : PortsIn} {s : State} (hx : 1 ≤ s.cfg.maxXfer) (hc : s.txCnt ≤ 5) :
    sentAt p s = if p.txReady then 1 else 0 := by
  unfold sentAt writeCount handshakeCount
  rw [offered_length]
  split <;> omega

theorem receivedAt_eq {p : PortsIn} {s : State} (hx : 1 ≤ s.cfg.maxXfer) (hc : s.rxCnt ≤ 5) :
    receivedAt p s = if p.rxValid then min 1 s.rxq.length else 0 := by
  unfold receivedAt readCount handshakeCount missing frameLen
  split <;> omega

section
variable {p : PortsIn} {s t : State} (he : nextEvent s = .edge p) (hr : p.rst = false) (h : step s = .next t)
include he hr h

/-- An edge in the write phase before the deadline: the bytes of the handshake go out, then `tx_err` ends the transaction or they
are counted (42_transaction_engine R173, R190). -/
theorem writeEdge (hp : s.phase = .write) (hd : s.now < s.deadline) :
    t.wireTx = s.wireTx ++ (offered s).take (sentAt p s) ∧ (p.txErr = true → t.phase = .idle) ∧
      (p.txErr = false →
        t = portPart p (takeEvent s) (countSent (sentAt p s) (chWrite (sentAt p s) 0 (takeEvent s)))) := by
  obtain ⟨u, hu, rfl⟩ := step_of_edge he hr h
  have hcore : coreMove p s = [.write (handshakeCount p.txReady) (handshakeErr p.txErr) 0] := by simp [coreMove, hp]
  obtain ⟨hnil, -⟩ | ⟨m, hm, hu⟩ := hu
  · cases hcore.symm.trans hnil
  · cases hcore.symm.trans hm
    obtain ⟨hn, -⟩ | ⟨-, hle, -⟩ | ⟨-, -, herr, hw⟩ | ⟨-, -, herr, hw⟩ :=
      writeStep_cases (handshakeCount p.txReady) (handshakeErr p.txErr) 0 (takeEvent s)
    · simp [hp] at hn
    · simp only [takeEvent_deadline, takeEvent_now] at hle; omega
    · have hu := hw.symm.trans hu
      have herr := (handshakeErr_eq_fail_iff _).1 herr
      exact ⟨by simp [wireTx_of_complete hu, sentAt], fun _ => by simp [phase_of_complete hu], fun hn => by simp [hn] at herr⟩
    · cases hw.symm.trans hu
      have herr := (handshakeErr_eq_ok_iff _).1 herr
      exact ⟨by simp [sentAt], fun hn => by simp [hn] at herr, fun _ => by simp [portPart, sentAt]⟩

/-- An edge in the read phase before the deadline: the bytes of the handshake leave `RXQ`, then `rx_err` ends the transaction or
they are stored (42_transaction_engine R174, R190). -/
theorem readEdge (hp : s.phase = .read) (hd : s.now < s.deadline) :
    t.rxq = s.rxq.drop (receivedAt p s) ++ p.device ∧ (p.rxErr = true → t.phase = .idle) ∧
      (p.rxErr = false →
        t = portPart p (takeEvent s)
          (storeReply (s.rxq.take (receivedAt p s)) (chRead (receivedAt p s) 0 (takeEvent s)))) := by
  obtain ⟨u, hu, rfl⟩ := step_of_edge he hr h
  have hcore : coreMove p s = [.read (handshakeCount p.rxValid) (handshakeErr p.rxErr) 0] := by simp [coreMove, hp]
  obtain ⟨hnil, -⟩ | ⟨m, hm, hu⟩ := hu
  · cases hcore.symm.trans hnil
  · cases hcore.symm.trans hm
    obtain ⟨hn, -⟩ | ⟨-, hle, -⟩ | ⟨-, -, herr, hw⟩ | ⟨-, -, herr, hw⟩ :=
      readStep_cases (handshakeCount p.rxValid) (handshakeErr p.rxErr) 0 (takeEvent s)
    · simp [hp] at hn
    · simp only [takeEvent_deadline, takeEvent_now] at hle; omega
    · have hu := hw.symm.trans hu
      have herr := (handshakeErr_eq_fail_iff _).1 herr
      have hq : u.rxq = s.rxq.drop (receivedAt p s) := by
        obtain ⟨-, rfl⟩ := complete_eq_next hu
        simp [receivedAt]
      exact ⟨by simp [hq], fun _ => by simp [phase_of_complete hu], fun hn => by simp [hn] at herr⟩
    · cases hw.symm.trans hu
      have herr := (handshakeErr_eq_ok_iff _).1 herr
      exact ⟨by simp [receivedAt], fun hn => by simp [hn] at herr, fun _ => by simp [portPart, receivedAt]⟩

end

theorem txValid_iff (s : State) : txValid false s = true ↔ s.phase = .write ∧ s.now < s.deadline := by
  simp [txValid, expired]

theorem rxReady_iff (s : State) : rxReady false s = true ↔ s.phase = .read ∧ s.now < s.deadline := by
  simp [rxReady, expired]

/-- The next byte of the frame is what `tx_data` shows (42_transaction_engine R190). -/
theorem take_one_offered {s : State} (h : s.txCnt ≤ 5) : (offered s).take 1 = [txData s] := by
  unfold offered txData
  generalize s.txCnt = k at h
  interval_cases k <;> rfl

/-- Settles O57: before the deadline in the write phase the handshake's byte goes out and is counted, unless `tx_err` ends the
transaction, then with E_WRITE_FAILED; at any other edge nothing goes out. -/
theorem transmitPorts : Obligations.TransmitPorts := by
  intro s t p hc hx he hr h
  rw [hr]
  have hreset : resetEvent s = false := (resetEvent_of_edge he).trans hr
  have hcount : s.phase = .write → s.txCnt ≤ 5 := by
    obtain ⟨-, ⟨hwrite, -, -⟩, -⟩ := hc
    exact fun hp => (hwrite hp).1
  refine ⟨?wire, fun hv herr => ?failed, fun hv herr => ?counted⟩
  case wire =>
    by_cases hv : txValid false s = true
    · obtain ⟨hp, hd⟩ := (txValid_iff s).1 hv
      rw [(writeEdge he hr h hp hd).1, sentAt_eq hx (hcount hp)]
      cases p.txReady
      · simp
      · simp [hv, take_one_offered (hcount hp)]
    · obtain ⟨k, -, hw, hphase, hlate, -⟩ := wireGetsNextBytesOnly s t h
      have hk : k = 0 := by
        by_cases hp : s.phase = .write
        · exact hlate (Nat.le_of_not_lt fun hd => hv ((txValid_iff s).2 ⟨hp, hd⟩))
        · exact hphase hp
      simp [hw, hk, hv]
  case failed =>
    obtain ⟨hp, hd⟩ := (txValid_iff s).1 hv
    have hi := (writeEdge he hr h hp hd).2.1 herr
    obtain ⟨r, hends, hrsp⟩ := rspOf_owner_step hc (by simp [hp]) hreset h hi
    obtain ⟨hle, -⟩ | ⟨-, rfl⟩ := endsWith_of_write hends hp
    · omega
    · exact ⟨hi, hrsp⟩
  case counted =>
    obtain ⟨hp, hd⟩ := (txValid_iff s).1 hv
    rw [(writeEdge he hr h hp hd).2.2 herr, ← sentAt_eq hx (hcount hp)]
    simp [portPart]

/-- Settles O58: before the deadline in the read phase the handshake's byte leaves `RXQ` and is stored, unless `rx_err` ends the
transaction, then with E_READ_FAILED; at any other edge nothing is taken. -/
theorem receivePorts : Obligations.ReceivePorts := by
  intro s t p hc hx he hr h
  rw [hr]
  have hreset : resetEvent s = false := (resetEvent_of_edge he).trans hr
  have hcount : s.phase = .read → s.rxCnt ≤ 5 := by
    obtain ⟨-, ⟨-, hread, -⟩, -⟩ := hc
    exact fun hp => (hread hp).2
  refine ⟨?queue, fun hv herr => ?failed, fun hv herr b rest hrx hq => ?stored⟩
  case queue =>
    by_cases hv : rxReady false s = true
    · obtain ⟨hp, hd⟩ := (rxReady_iff s).1 hv
      rw [(readEdge he hr h hp hd).1, receivedAt_eq hx (hcount hp)]
      cases p.rxValid
      · simp
      · cases hq : s.rxq <;> simp [hv]
    · obtain ⟨k, -, -, hq, hphase, hlate⟩ := receiveQueueNeverFlushed s t h
      have hk : k = 0 := by
        by_cases hp : s.phase = .read
        · exact hlate (Nat.le_of_not_lt fun hd => hv ((rxReady_iff s).2 ⟨hp, hd⟩))
        · exact hphase hp
      simp [hq, hk, hv, deviceBytesNext_of_edge he]
  case failed =>
    obtain ⟨hp, hd⟩ := (rxReady_iff s).1 hv
    have hi := (readEdge he hr h hp hd).2.1 herr
    obtain ⟨r, hends, hrsp⟩ := rspOf_owner_step hc (by simp [hp]) hreset h hi
    obtain ⟨hle, -⟩ | ⟨-, rfl⟩ := endsWith_of_read hends hp
    · omega
    · exact ⟨hi, hrsp⟩
  case stored =>
    obtain ⟨hp, hd⟩ := (rxReady_iff s).1 hv
    have hone : receivedAt p s = 1 := by simp [receivedAt_eq hx (hcount hp), hrx, hq]
    have hcnt := hcount hp
    rw [(readEdge he hr h hp hd).2.2 herr, hone, hq]
    have hget := Frame.get_fill s.rxBuf s.rxCnt [b] s.rxCnt (by simp; omega)
    simpa [portPart] using hget

/-! ### The callers' ports -/

theorem mayRequest_portStep {m : Move} {j : Nat} {s : State} (hm : ∀ op val, m ≠ .request j op val)
    (h : mayRequest j s = true) : mayRequest j (portStep m s) = true := by
  obtain ⟨hl, hw, hf, hd⟩ := (mayRequest_iff j s).1 h
  have hlen : (portStep m s).callers.length = s.callers.length := afterMoves_callers_length [m] s
  have hkept : RspKept j s (portStep m s) := rspKept_afterMoves [m] j s
  refine (mayRequest_iff j _).2 ⟨by rwa [hlen], ?_, ?_, ?_⟩
  · simpa [waits, pendOf_portStep_of_ne hm] using hw
  · simpa [inFlight, portStep_phase, portStep_owner] using hf
  · by_contra hn
    obtain ⟨r, hr, hv⟩ := (rspWaits_iff j _).1 (by simpa using hn)
    simp [rspWaits_of_rspOf (hkept r hr hv) hv] at hd

/-- A request the ports ask for is latched, and none after it at the same edge displaces it. -/
theorem pendOf_afterMoves_of_mem {ms : List Move} {j : Nat} {op : Byte} {val : Word} {s : State}
    (hmem : .request j op val ∈ ms) (honly : ∀ op' val', .request j op' val' ∈ ms → op' = op ∧ val' = val)
    (hmay : mayRequest j s = true) : pendOf j (afterMoves ms s) = some { valid := true, op := op, val := val } := by
  induction ms generalizing s with
  | nil => cases hmem
  | cons m ms ih =>
    by_cases hm : ∀ op' val', m ≠ .request j op' val'
    · obtain rfl | hmem := List.mem_cons.1 hmem
      · exact absurd rfl (hm op val)
      · exact ih hmem (fun op' val' h => honly op' val' (List.mem_cons_of_mem _ h)) (mayRequest_portStep hm hmay)
    · simp only [not_forall, not_not] at hm
      obtain ⟨op', val', rfl⟩ := hm
      obtain ⟨rfl, rfl⟩ := honly op' val' List.mem_cons_self
      have hlatched : pendOf j (portStep (.request j op' val') s) = some { valid := true, op := op', val := val' } :=
        (pendOf_requestStep j j op' val' s).trans (if_pos ⟨hmay, rfl⟩)
      exact (pendKept_afterMoves ms _ j ((waits_iff j _).2 ⟨_, hlatched, rfl⟩)).trans hlatched

theorem isOpen_portStep (m : Move) (s : State) :
    (portStep m s).isOpen = (s.isOpen || decide (m = .openChannel)) := by
  cases m with
  | openChannel => cases ho : s.isOpen <;> simp [portStep, openStep, ho]
  | request i op val => simp [portStep]
  | response i => simp [portStep]
  | _ => simp [portStep]

theorem isOpen_afterMoves (ms : List Move) (s : State) :
    (afterMoves ms s).isOpen = (s.isOpen || decide (.openChannel ∈ ms)) := by
  induction ms generalizing s with
  | nil => simp [afterMoves]
  | cons m ms ih =>
    refine (ih (portStep m s)).trans ?_
    rw [isOpen_portStep]
    simp only [List.mem_cons, Bool.decide_or, Bool.or_assoc, eq_comm]

/-- The core's part of an edge without reset makes `u` of `s`: at most one move of the core (42_transaction_engine R186). -/
def CorePart (s u : State) : Prop := u = s ∨ ∃ m, isCoreMove m = true ∧ runMove m s = .next u

theorem core_of_edge {p : PortsIn} {s t : State} (he : nextEvent s = .edge p) (hr : p.rst = false)
    (h : step s = .next t) :
    ∃ u, CorePart (takeEvent s) u ∧ t = portPart p (takeEvent s) u := by
  obtain ⟨u, ⟨-, hu⟩ | ⟨m, hm, hu⟩, ht⟩ := step_of_edge he hr h
  · exact ⟨u, .inl hu, ht⟩
  · obtain hnil | ⟨m', hcore, hm'⟩ := coreMove_cases p s
    · cases hm.symm.trans hnil
    · cases hm.symm.trans hm'
      exact ⟨u, .inr ⟨m, hcore, hu⟩, ht⟩

theorem latches_of_corePart {s u : State} {j : Nat} (hu : CorePart s u) (hg : mayGrant j s = false) :
    pendOf j u = pendOf j s ∧ (inFlight j s = false → rspOf j u = rspOf j s) := by
  obtain rfl | ⟨m, hm, hu⟩ := hu
  · exact ⟨rfl, fun _ => rfl⟩
  · exact latches_of_isCoreMove hm hg hu

theorem isOpen_of_corePart {s u : State} (hu : CorePart s u) : u.isOpen = s.isOpen := by
  obtain rfl | ⟨m, hm, hu⟩ := hu
  · rfl
  · exact (coreFrame_of_isCoreMove hm hu).1

theorem mayGrant_of_not_waits {j : Nat} {s : State} (hw : waits j s = false) : mayGrant j s = false := by
  simp [mayGrant, hw]

theorem ne_reset_of_isCoreMove {m : Move} (h : isCoreMove m = true) : m ≠ .reset := by
  rintro rfl
  cases h

/-- The core's part of an edge begins no transaction of a caller that does not wait. -/
theorem inFlight_of_corePart {s u : State} {j : Nat} (hu : CorePart s u) (hw : waits j s = false)
    (hf : inFlight j s = false) : inFlight j u = false := by
  obtain rfl | ⟨m, hm, hu⟩ := hu
  · exact hf
  · by_cases hb : u.phase = .idle
    · simp [inFlight, hb]
    · have hne : u.owner ≠ j := by
        by_cases hi : s.phase = .idle
        · obtain ⟨hid | hs, -⟩ | ⟨_, _, -, -, -, hd⟩ := grants_runMove hi (ne_reset_of_isCoreMove hm) hu
          · exact absurd hid hb
          · rintro rfl
            simp [hs.owner] at hw
          · exact absurd hd.idle hb
        · obtain ⟨hg, -⟩ | ⟨_, -, hd⟩ := proceeds_runMove hi (ne_reset_of_isCoreMove hm) hu
          · rw [hg.owner]; exact owner_ne_of_not_inFlight hi hf
          · exact absurd hd.idle hb
      simp [inFlight, hne]

/-- A caller that may ask before an edge may still ask once the core's part of it is done (42_transaction_engine R189). -/
theorem mayRequest_of_corePart {s u : State} {j : Nat} (hu : CorePart s u) (h : mayRequest j s = true) :
    mayRequest j u = true := by
  obtain ⟨hl, hw, hf, hd⟩ := (mayRequest_iff j s).1 h
  obtain ⟨hpend, hrsp⟩ := latches_of_corePart hu (mayGrant_of_not_waits hw)
  refine (mayRequest_iff j u).2 ⟨?_, ?_, inFlight_of_corePart hu hw hf, ?_⟩
  · rw [← Nat.not_le, ← pendOf_eq_none_iff, hpend, pendOf_eq_none_iff]
    omega
  · simpa [waits, hpend] using hw
  · simpa [rspWaits, hrsp hf] using hd

/-- Settles O59: of an edge's moves the ports' own are those their handshakes ask for, and the core's touches no latch of a
caller that may ask or has a response. -/
theorem callerPorts : Obligations.CallerPorts := by
  intro s t p hc he hr h
  obtain ⟨u, hu, rfl⟩ := core_of_edge he hr h
  refine ⟨?opened, fun i op val hreq hready => ?latched, fun i hnone hw => ?untouched, fun i r hrsp hv => ?response⟩
  case opened =>
    change (afterMoves (portMoves p (takeEvent s)) u).isOpen = _
    rw [isOpen_afterMoves, isOpen_of_corePart hu]
    simp only [portMoves_takeEvent, mem_portMoves_openChannel, takeEvent_isOpen]
    cases s.isOpen <;> simp
  case latched =>
    have hmay : mayRequest i (takeEvent s) = true := by simpa [reqReady, hr] using hready
    refine pendOf_afterMoves_of_mem ?_ (fun op' val' hm => ?_) (mayRequest_of_corePart hu hmay)
    · rw [portMoves_takeEvent]
      exact mem_portMoves_request.2 ⟨hreq, hready⟩
    · have hreq' := (mem_portMoves_request.1 hm).1
      simpa using hreq'.symm.trans hreq
  case untouched =>
    have hcore := (latches_of_corePart hu (mayGrant_of_not_waits (by simpa using hw))).1
    refine (pendOf_afterMoves_of_not_mem (fun op val hm => ?_) u).trans (by simpa using hcore)
    rw [portMoves_takeEvent] at hm
    obtain ⟨hreq, hready⟩ := mem_portMoves_request.1 hm
    simp [hreq, hready] at hnone
  case response =>
    have hvalid : rspWaits i s = true := by simpa [rspValid, hr] using hv
    obtain ⟨-, -, -, ho, hports, -⟩ := hc
    have hw : waits i s = false := by
      by_contra hn
      simp [(portsOk_iff s).1 hports i (by simpa using hn)] at hvalid
    have hf : inFlight i s = false := by
      by_contra hn
      obtain ⟨hb, hown⟩ : s.phase ≠ .idle ∧ s.owner = i := by simpa [inFlight] using hn
      obtain ⟨-, -, -, hd⟩ := ho hb
      simp [hown, hvalid] at hd
    have hcore := (latches_of_corePart hu (mayGrant_of_not_waits (by simpa using hw))).2 (by simpa [inFlight] using hf)
    refine (rspOf_afterMoves (portMoves p (takeEvent s)) i u).trans ?_
    simp only [portMoves_takeEvent, mem_portMoves_response, hv, true_and, hcore, rspOf_takeEvent, hrsp]
    split <;> rfl

end Sys2Proof.Machine
end

section
/-!
How many edges of the clock a transaction takes (42_transaction_engine R187): a success takes at least thirteen after the grant,
and with a channel that is always ready and a whole reply waiting it takes no more.
-/

namespace Sys2Proof.Machine

/-- In flight the progress is the number of bytes moved (10_state R22). -/
theorem progress_of_inFlight {s : State} (hk : PhaseOk s) (hb : s.phase ≠ .idle) :
    progress s = s.txCnt + s.rxCnt := by
  obtain ⟨hwrite, hread, hdecode⟩ := hk
  unfold progress
  cases hp : s.phase with
  | idle => exact absurd hp hb
  | write => simp [(hwrite hp).2]
  | read => simp [(hread hp).1]
  | decode => simp [hdecode hp]

/-! ### No success before the thirteenth edge -/

/-- An edge in flight that does not end the transaction moves at most one byte. -/
theorem progress_of_edge_le {p : PortsIn} {s t : State} (hc : Coherent s) (he : nextEvent s = .edge p)
    (hr : p.rst = false) (h : step s = .next t) (hb : s.phase ≠ .idle) (ht : t.phase ≠ .idle) :
    progress t ≤ progress s + 1 := by
  obtain ⟨hd, hnd⟩ := step_of_sequencerEvent (sequencerEvent_of_edge he hr hb) hb h ht
  obtain ⟨-, hk', -⟩ := stepKeepsCoherent s t hc h
  obtain ⟨-, hk, -⟩ := hc
  rw [progress_of_inFlight hk hb, progress_of_inFlight hk' ht]
  cases hp : s.phase with
  | idle => exact absurd hp hb
  | decode => exact absurd hp hnd
  | write =>
    obtain ⟨-, herr, hok⟩ := writeEdge he hr h hp hd
    have hsent := sentAt_le_one p s
    rw [hok (Bool.eq_false_of_not_eq_true (mt herr ht))]
    simp [portPart]
    omega
  | read =>
    obtain ⟨-, herr, hok⟩ := readEdge he hr h hp hd
    have hreceived := receivedAt_le_one p s
    rw [hok (Bool.eq_false_of_not_eq_true (mt herr ht))]
    simp [portPart]
    omega

theorem progress_of_starts {s t : State} (h : Starts s t) : progress t = 0 := by
  simp [progress, h.phase, h.txCnt]

theorem ne_ok_of_endsWith {s : State} {r : Result} (h : EndsWith s r) (hp : s.phase ≠ .decode) : r.status ≠ .ok := by
  cases h with
  | decoded hd => exact absurd hd hp
  | _ => simp [errResult]

/-- Caller `o` has no undelivered success. -/
def NoSuccessFor (o : Nat) (s : State) : Prop := ∀ r, rspOf o s = some r → r.valid = true → r.status ≠ .ok

/-- A step outside the decode phase delivers no success. -/
theorem noSuccessFor_step {o : Nat} {s t : State} (hc : Coherent s) (hr : resetEvent s = false)
    (h : step s = .next t) (hp : s.phase ≠ .decode) (hn : NoSuccessFor o s) : NoSuccessFor o t := by
  intro r hrsp hv
  obtain hs | ⟨-, -, ⟨-, -, q, he, rfl⟩ | ⟨-, _, -, -, -, rfl⟩⟩ := rspOf_step_cases hc hr h hrsp hv
  · exact hn r hs hv
  · exact ne_ok_of_endsWith he hp
  · simp [delivered, errResult]

/-- By induction on the edges: while fewer than thirteen are made, no transaction passes the decode phase. -/
theorem noSuccessFor_edges {o : Nat} (k : Nat) {s t : State} (hc : Coherent s) (hk : k ≤ 12)
    (hprogress : s.phase ≠ .idle → progress s + k ≤ 12) (hn : NoSuccessFor o s)
    (hedge : ∀ e ∈ s.script.take k, isEdge e = true) (hlen : k ≤ s.script.length) (h : runSteps k s = .next t) :
    NoSuccessFor o t := by
  induction k generalizing s with
  | zero => cases h; exact hn
  | succ k ih =>
    obtain ⟨p, rest, hs, hrst, hlen, hedge⟩ := exists_edge hlen hedge
    obtain ⟨u, hu, h⟩ := andThen_eq_next.1 h
    have he := nextEvent_of_script hs
    have hr : resetEvent s = false := (resetEvent_of_edge he).trans hrst
    have hscript : u.script = rest := by rw [script_step hu, hs, List.tail_cons]
    have hp : s.phase ≠ .decode := by
      intro hp
      have hle := hprogress (by simp [hp])
      simp only [progress, hp] at hle
      omega
    have hprogress' : u.phase ≠ .idle → progress u + k ≤ 12 := by
      intro hb'
      by_cases hb : s.phase = .idle
      · obtain ⟨hid | hst, -⟩ | ⟨_, _, -, -, -, hd⟩ := grants_step hr hu hb
        · exact absurd hid hb'
        · rw [progress_of_starts hst]; omega
        · exact absurd hd.idle hb'
      · have hle := hprogress hb
        have hone := progress_of_edge_le hc he hrst hu hb hb'
        omega
    exact ih (stepKeepsCoherent s u hc hu) (by omega) hprogress' (noSuccessFor_step hc hr hu hp hn) (by rwa [hscript])
      (by rwa [hscript]) h

/-- Settles O54: just after the grant nothing has been moved and the owner has no response. -/
theorem clockedSuccessNeedsThirteenTicks : Obligations.ClockedSuccessNeedsThirteenTicks := by
  intro s t k r hc hp htx hk hedge hlen h hrsp hv
  have hb : s.phase ≠ .idle := by simp [hp]
  have hnone : NoSuccessFor s.owner s := by
    intro q hq hqv
    have hw := rspWaits_owner_of_coherent hc hb
    simp [rspWaits_of_rspOf hq hqv] at hw
  exact noSuccessFor_edges k hc hk (fun _ => by simpa [progress, hp, htx] using hk) hnone hedge hlen h r hrsp hv

/-! ### Thirteen edges are enough -/

/-- The ports of a channel that is ready and does not fail (42_transaction_engine R190). -/
def IsReadyEdge (p : PortsIn) : Prop :=
  p.rst = false ∧ p.txReady = true ∧ p.txErr = false ∧ p.rxValid = true ∧ p.rxErr = false

/-- `s` is what the transaction granted in `s0` has come to after `k` edges: `k` bytes were moved, those sent are the beginning of
its frame, and what was and will be received begins with `reply`. -/
structure Underway (s0 : State) (reply : Frame) (k : Nat) (s : State) : Prop where
  coherent : Coherent s
  inFlight : s.phase ≠ .idle
  moved : s.txCnt + s.rxCnt = k
  owner : s.owner = s0.owner
  txBuf : s.txBuf = s0.txBuf
  deadline : s.deadline = s0.deadline
  cfg : s.cfg = s0.cfg
  now : s.now = s0.now + k
  wireTx : s.wireTx = s0.wireTx ++ s0.txBuf.toList.take s.txCnt
  stream : ∃ rest, replyStream s = reply.toList ++ rest

theorem continues_step {s t : State} (hb : s.phase ≠ .idle) (h : step s = .next t) : Continues s t := by
  have ht := step_transmits h
  cases hg : grantedNext s with
  | none => rwa [hg] at ht
  | some r =>
    rw [hg] at ht
    exact absurd ht.1 hb

/-- What remains to be seen of an edge in flight: which bytes were moved. The rest holds of every edge that does not end the
transaction. -/
theorem underway_of_edge {s0 : State} {reply : Frame} {k : Nat} {p : PortsIn} {s t : State}
    (hu : Underway s0 reply k s) (he : nextEvent s = .edge p) (hr : p.rst = false) (h : step s = .next t)
    (ht : t.phase ≠ .idle) (hmoved : t.txCnt + t.rxCnt = k + 1)
    (hstream : replyStream t = replyStream s ++ p.device) : Underway s0 reply (k + 1) t := by
  obtain ⟨hc, hb, -, hw, hx, hd, hg, hn, hwire, rest, hrest⟩ := hu
  have hreset : resetEvent s = false := (resetEvent_of_edge he).trans hr
  have hgo := goesOn_step hb hreset h ht
  refine ⟨stepKeepsCoherent s t hc h, ht, hmoved, hgo.owner.trans hw, hgo.txBuf.trans hx, hgo.deadline.trans hd,
    (cfg_of_step hc hb hreset h).trans hg, by rw [now_of_edge he h]; omega, ?_,
    rest ++ p.device, by rw [hstream, hrest, List.append_assoc]⟩
  obtain ⟨j, -, hwt, -, -, hcount⟩ := continues_step hb h
  obtain ⟨-, htx, -⟩ := hcount ht
  rw [hwt, hwire, htx, offered, hx, List.take_add, List.append_assoc]

/-- An edge with a ready channel before the deadline moves one byte, in the read phase one of the reply. -/
theorem underway_step {s0 : State} {reply : Frame} {k : Nat} {p : PortsIn} {s : State} (hu : Underway s0 reply k s)
    (hk : k < 12) (hx : 1 ≤ s0.cfg.maxXfer) (hlate : s0.now + 12 ≤ s0.deadline) (he : nextEvent s = .edge p)
    (hready : IsReadyEdge p) : ∃ t, step s = .next t ∧ Underway s0 reply (k + 1) t := by
  obtain ⟨hrst, htx, htxe, hrx, hrxe⟩ := hready
  have ⟨hc, hb, hmoved, _, _, hd, hg, hn, _, rest, hrest⟩ := hu
  obtain ⟨t, h⟩ := exists_step hc
  obtain ⟨-, ⟨hwrite, hread, hdecode⟩, -⟩ := hc
  have hlt : s.now < s.deadline := by omega
  rw [← hg] at hx
  refine ⟨t, h, ?_⟩
  cases hp : s.phase with
  | idle => exact absurd hp hb
  | decode =>
    have hcount := hdecode hp
    omega
  | write =>
    have hone : sentAt p s = 1 := by simp [sentAt_eq hx (hwrite hp).1, htx]
    have ht := (writeEdge he hrst h hp hlt).2.2 htxe
    rw [hone] at ht
    have hgo := goesOn_portPart p (goesOn_countSent 1 0 (s := takeEvent s) (by simpa using hp))
    refine underway_of_edge hu he hrst h (ht ▸ hgo.inFlight) ?_ ?_
    · simp only [ht, portPart, endEdge_txCnt, endEdge_rxCnt, afterMoves_txCnt, afterMoves_rxCnt, countSent_txCnt,
        countSent_rxCnt, chWrite_txCnt, chWrite_rxCnt, takeEvent_txCnt, takeEvent_rxCnt]
      omega
    · rw [ht, portPart, replyStream_endEdge, replyStream_afterMoves, ← replyStream_takeEvent s]
      rfl
  | read =>
    have hcount := (hread hp).2
    have hpos : 1 ≤ s.rxq.length := by
      have hlen := congrArg List.length hrest
      simp only [replyStream, List.length_append, List.length_take, Frame.length_toList] at hlen
      omega
    have hone : receivedAt p s = 1 := by simpa [receivedAt_eq hx hcount, hrx] using hpos
    have ht := (readEdge he hrst h hp hlt).2.2 hrxe
    rw [hone] at ht
    have hgo := goesOn_portPart p (goesOn_storeReply (s.rxq.take 1) 1 0 (s := takeEvent s) (by simpa using hp))
    have hflight : t.phase ≠ .idle := ht ▸ hgo.inFlight
    refine underway_of_edge hu he hrst h hflight ?_ ?_
    · simp only [ht, portPart, endEdge_txCnt, endEdge_rxCnt, afterMoves_txCnt, afterMoves_rxCnt, storeReply_txCnt,
        storeReply_rxCnt, chRead_txCnt, chRead_rxCnt, takeEvent_txCnt, takeEvent_rxCnt, List.length_take]
      omega
    · rw [← deviceBytesNext_of_edge he]
      exact replyBytesKeepOrder s t hu.coherent hp h hflight

theorem Frame.toList_injective {f g : Frame} (h : f.toList = g.toList) : f = g := by
  cases f
  cases g
  simpa [Frame.toList] using h

/-- After twelve bytes the reply is whole, and the next edge decodes it. -/
theorem underway_last {s0 : State} {reply : Frame} {p : PortsIn} {s : State} (hu : Underway s0 reply 12 s)
    (he : nextEvent s = .edge p) (hr : p.rst = false) :
    ∃ t, step s = .next t ∧ t.phase = .idle ∧ t.now = s0.now + 13 ∧ t.wireTx = s0.wireTx ++ s0.txBuf.toList ∧
      rspOf s0.owner t = some (delivered (parseResponse reply.toList)) := by
  obtain ⟨hc, hb, hmoved, hw, -, -, -, hn, hwire, rest, hrest⟩ := hu
  have ⟨⟨htx6, hrx6⟩, ⟨hwrite, hread, _⟩, _⟩ := hc
  simp only [frameLen] at htx6 hrx6
  have htx : s.txCnt = 6 := by omega
  have hrx : s.rxCnt = 6 := by omega
  have hp : s.phase = .decode := by
    cases hp : s.phase with
    | idle => exact absurd hp hb
    | write => have hcount := hwrite hp; omega
    | read => have hcount := hread hp; omega
    | decode => rfl
  have hbuf : s.rxBuf = reply := by
    rw [replyStream, hrx, List.take_of_length_le (by simp)] at hrest
    exact Frame.toList_injective (List.append_inj_left hrest rfl)
  have hreset : resetEvent s = false := (resetEvent_of_edge he).trans hr
  obtain ⟨t, h, hi, -⟩ := sequencerEndsExpiredTransaction s hc hb (.inr hp) (sequencerEvent_of_edge he hr hb)
  obtain ⟨r, hends, hrsp⟩ := rspOf_owner_step hc hb hreset h hi
  obtain ⟨k, -, hwt, hphase, -⟩ := wireGetsNextBytesOnly s t h
  refine ⟨t, h, hi, by rw [now_of_edge he h, hn], ?_, ?_⟩
  · rw [hwt, hphase (by simp [hp]), hwire, htx, List.take_of_length_le (by simp)]
    simp
  · rwa [endsWith_of_decode hends hp, hbuf, hw] at hrsp

/-- By induction on the bytes still to be moved. -/
theorem underway_runSteps {s0 : State} {reply : Frame} (hx : 1 ≤ s0.cfg.maxXfer) (hlate : s0.now + 12 ≤ s0.deadline)
    (d : Nat) {k : Nat} {s : State} {ps : List PortsIn} {more : List Event} (hu : Underway s0 reply k s)
    (hk : k + d = 12) (hlen : ps.length = d + 1) (hready : ∀ p ∈ ps, IsReadyEdge p)
    (hs : s.script = ps.map Event.edge ++ more) :
    ∃ t, runSteps (d + 1) s = .next t ∧ t.phase = .idle ∧ t.now = s0.now + 13 ∧
      t.wireTx = s0.wireTx ++ s0.txBuf.toList ∧ rspOf s0.owner t = some (delivered (parseResponse reply.toList)) := by
  induction d generalizing k s ps with
  | zero =>
    obtain ⟨p, rfl⟩ := List.length_eq_one_iff.1 hlen
    have he : nextEvent s = .edge p := nextEvent_of_script (by simpa using hs)
    obtain rfl : k = 12 := hk
    obtain ⟨t, h, ht⟩ := underway_last hu he (hready p (by simp)).1
    exact ⟨t, runSteps_succ h 0, ht⟩
  | succ d ih =>
    obtain ⟨p, ps, rfl⟩ := List.exists_cons_of_length_eq_add_one hlen
    have he : nextEvent s = .edge p := nextEvent_of_script (by simpa using hs)
    obtain ⟨u, h, hu⟩ := underway_step hu (by omega) hx hlate he (hready p List.mem_cons_self)
    obtain ⟨t, ht, hrest⟩ := ih hu (by omega) (by simpa using hlen) (fun q hq => hready q (List.mem_cons_of_mem p hq))
      (by rw [script_step h, hs]; rfl)
    exact ⟨t, (runSteps_succ h _).trans ht, hrest⟩

/-- Settles O55: just after the grant nothing has been moved, and the reply is what `RXQ` begins with. -/
theorem clockedSuccessInThirteenTicks : Obligations.ClockedSuccessInThirteenTicks := by
  intro s ps reply rest more hc hp htx hx hlate hq hlen hready hs
  have hrx : s.rxCnt = 0 := by
    obtain ⟨-, ⟨hwrite, -, -⟩, -⟩ := hc
    exact (hwrite hp).2
  have hu : Underway s reply 0 s :=
    ⟨hc, by simp [hp], by simp [htx, hrx], rfl, rfl, rfl, rfl, rfl, by simp [htx], rest, by simp [replyStream, hrx, hq]⟩
  exact underway_runSteps hx hlate 12 hu rfl hlen hready hs

end Sys2Proof.Machine
end

section
/-!
The rows of the opcode table in every phase (42_transaction_engine R168, R172, R180), and how a grant, a decode step and an edge of
the clock come to run them (R186, R191).
-/

namespace Sys2Proof.Machine

/-! ### Request rows -/

/-- A request row, whichever it is, is one and the same operation on its own opcode and value. -/
theorem exec_of_kind_request {i : Instr} (h : i.kind = .request) :
    ∃ op v, ∀ s : State, exec i s = beginSend op v s := by
  cases i with
  | command v => exact ⟨opCommand, v, fun _ => rfl⟩
  | write v => exact ⟨opWrite, v, fun _ => rfl⟩
  | read v => exact ⟨opRead, v, fun _ => rfl⟩
  | _ => cases h

theorem beginSend_of_not_free (op : Byte) (v : Word) {s : State} (h : s.isOpen = false ∨ s.phase ≠ .idle) :
    beginSend op v s = .next s := by
  obtain h | h := h <;> simp [beginSend, h]

/-- Settles O15: each request row begins the transaction of its own opcode. -/
theorem requestRowsStart : Obligations.RequestRowsStart :=
  fun _ v ho hp => ⟨beginSend_of_free opCommand v ho hp, beginSend_of_free opWrite v ho hp,
    beginSend_of_free opRead v ho hp⟩

/-- Settles O16: a request row waits where the channel is closed or the lock held, and a start writes only what a grant sets. -/
theorem requestRowsWaitAndFrame : Obligations.RequestRowsWaitAndFrame := by
  refine ⟨fun s i hk hfree => ?wait, fun s t i hk h => ?frame⟩
  all_goals obtain ⟨op, v, he⟩ := exec_of_kind_request hk
  case wait => rw [he, beginSend_of_not_free op v hfree]
  case frame =>
    rw [he] at h
    obtain ⟨-, -, rfl⟩ | ⟨-, rfl⟩ := beginSend_eq_next h <;> exact ⟨rfl, rfl, rfl, rfl, rfl, rfl, rfl, rfl, rfl, rfl⟩

/-! ### Response and error code rows -/

/-- A response or error code row, whichever it is, is a completion in the decode phase and waits in every other. -/
theorem exec_of_kind_ne_request {i : Instr} (h : i.kind ≠ .request) :
    ∃ r, ∀ s : State, exec i s = if s.phase = .decode then complete r s else .next s := by
  cases i with
  | command v | write v | read v => exact absurd rfl h
  | ack v => exact ⟨okResult v, fun s => by simp [exec, execAck, succeed_eq, okResult]⟩
  | nak code reserved => exact ⟨_, fun s => (exec_nak code reserved s).trans (deviceError_eq _ _ s)⟩
  | errInvalidAddress | errInvalidBcc | errInvalidCommand | errInvalidParameter | errOutOfRange | errUnknown _ =>
    exact ⟨_, deviceError_eq _ _⟩

/-- Settles O20: a completion writes the phase and the owner's latch, and there is one in the decode phase only. -/
theorem replyRowsWaitAndFrame : Obligations.ReplyRowsWaitAndFrame := by
  refine ⟨fun s i hk hp => ?wait, fun s t i hk h => ?frame⟩
  all_goals obtain ⟨r, he⟩ := exec_of_kind_ne_request hk
  case wait => rw [he, if_neg hp]
  case frame =>
    rw [he] at h
    split at h
    · next hp =>
      refine ⟨?_, ?_, pendOf_of_complete h, fun j hj => by rw [rspOf_of_complete h, if_neg (Ne.symm hj)],
        fun hn => absurd hp hn, fun _ => phase_of_complete h⟩
      · obtain ⟨-, rfl⟩ := complete_eq_next h
        rfl
      · obtain ⟨-, rfl⟩ := complete_eq_next h
        simp
    · next hp =>
      cases h
      exact ⟨rfl, rfl, fun _ => rfl, fun _ _ => rfl, fun _ => rfl, fun hn => absurd hn hp⟩

/-! ### Steps that run a row -/

theorem step_of_script_move {s : State} {m : Move} {rest : List Event} (h : s.script = .move m :: rest) :
    step s = runMove m { s with script := rest } := by
  simp [step, nextEvent, takeEvent, h, runEvent]

theorem step_of_script_edge {s : State} {p : PortsIn} {rest : List Event} (h : s.script = .edge p :: rest) :
    step s = clockEdge p { s with script := rest } := by
  simp [step, nextEvent, takeEvent, h, runEvent]

/-- A grant with a request that decodes is its row, once the request is latched (42_transaction_engine R168). -/
theorem grantStep_eq_exec {i : Nat} {p : Pend} {instr : Instr} {s : State} (ho : s.isOpen = true)
    (hi : s.phase = .idle) (hp : pendOf i s = some p) (hv : p.valid = true)
    (hd : decodeRequest p.op p.val = some instr) : grantStep i s = exec instr (latchRequest i p s) := by
  have hg : mayGrant i s = true := (mayGrant_iff i s).2 ⟨ho, hi, (waits_iff i s).2 ⟨p, hp, hv⟩⟩
  simp only [grantStep, hg, if_true, hp, hd]

/-- Settles O22: the listed event is the next one, and a grant and a decode step go through the decoder. -/
theorem stepRunsDecodedInstruction : Obligations.StepRunsDecodedInstruction := by
  refine ⟨fun s m rest => step_of_script_move, fun s hs => ?free, fun s i p instr rest hs ho hi hp hv hd => ?grant,
    fun s instr rest hs hp hd => ?decode⟩
  case free => simp [step, nextEvent, takeEvent, hs]
  case grant =>
    rw [step_of_script_move hs]
    exact grantStep_eq_exec (s := { s with script := rest }) ho hi hp hv hd
  case decode =>
    rw [step_of_script_move hs]
    exact decodeStep_of_ok (s := { s with script := rest }) hp hd

/-- An edge without reset at which the core makes one move: that move, what the ports ask for, the device's bytes, one tick. -/
theorem clockEdge_of_coreMove {p : PortsIn} {m : Move} {s : State} (hr : p.rst = false) (hm : coreMove p s = [m]) :
    clockEdge p s = andThen (runMove m s) (fun u => andThen (runMoves (portMoves p s) u) (fun v =>
      .next { v with rxq := v.rxq ++ p.device, now := v.now + 1 })) := by
  have hports : ∀ u, runMoves (portMoves p s) u = .next (afterMoves (portMoves p s) u) :=
    runMoves_of_isPortMove _ fun m => isPortMove_of_mem_portMoves
  rw [clockEdge_of_not_rst hr, hm, runMoves_singleton]
  simp only [hports]
  rfl

theorem coreMove_of_arbiter {p : PortsIn} {i : Nat} {s : State} (ho : s.isOpen = true) (hi : s.phase = .idle)
    (ha : arbiter p.arb s = some i) : coreMove p s = [.grant i] := by
  simp [coreMove, hi, ho, ha]

/-- Settles O23: the core's move of the edge is the decode step, or the grant the arbiter makes. -/
theorem edgeRunsDecodedInstruction : Obligations.EdgeRunsDecodedInstruction := by
  refine ⟨fun s p instr rest hs hr hp hd => ?decode, fun s p i q instr rest hs hr ho hi ha hq hd => ?grant⟩
  case decode =>
    have hm : coreMove p { s with script := rest } = [.decode] := by simp [coreMove, hp]
    have he : runMove .decode { s with script := rest } = exec instr { s with script := rest } :=
      decodeStep_of_ok (s := { s with script := rest }) hp hd
    rw [step_of_script_edge hs, clockEdge_of_coreMove hr hm, he]
  case grant =>
    obtain ⟨q', hq', hv⟩ := (waits_iff i s).1 (waits_of_arbiter ha)
    obtain rfl := Option.some_injective _ (hq.symm.trans hq')
    have hm : coreMove p { s with script := rest } = [.grant i] :=
      coreMove_of_arbiter (s := { s with script := rest }) ho hi ha
    have he : runMove (.grant i) { s with script := rest } = exec instr (latchRequest i q { s with script := rest }) :=
      grantStep_eq_exec (s := { s with script := rest }) ho hi hq hv hd
    rw [step_of_script_edge hs, clockEdge_of_coreMove hr hm, he]

end Sys2Proof.Machine
end

section
/-!
The ports that show a response (42_transaction_engine R189), and each move whole (R166 to R174, R182): what it writes and what it
leaves alone, and the moves that are not enabled; then one call from its grant to its result (R165).
-/

namespace Sys2Proof.Machine

/-! ### The response ports -/

/-- Settles O14: the codes as numbered; each port reads its part of `RSP[i]`, where there is one. -/
theorem statusCodesAndResponsePorts : Obligations.StatusCodesAndResponsePorts := by
  refine ⟨⟨rfl, rfl, rfl, rfl, rfl, rfl, rfl, rfl, rfl, rfl⟩, fun s i r hr => ?shown, fun s i hi => ?none⟩
  case shown => simp [rspStatus, rspValue, rspInfo, rspValid, rspWaits, hr]
  case none =>
    have hr : rspOf i s = none := (rspOf_eq_none_iff i s).2 hi
    simp [rspStatus, rspValue, rspInfo, rspValid, rspWaits, hr]

/-! ### The grant -/

theorem legalOpcode_iff (op : Byte) : legalOpcode op = true ↔ op = 0x43#8 ∨ op = 0x57#8 ∨ op = 0x52#8 := by
  simp [legalOpcode, opCommand, opWrite, opRead, or_assoc]

theorem grantStep_of_legal {i : Nat} {p : Pend} {s : State} (ho : s.isOpen = true) (hi : s.phase = .idle)
    (hp : pendOf i s = some p) (hv : p.valid = true) (hl : legalOpcode p.op = true) :
    grantStep i s = .next (startTransaction p.op p.val (latchRequest i p s)) := by
  have hg : mayGrant i s = true := (mayGrant_iff i s).2 ⟨ho, hi, (waits_iff i s).2 ⟨p, hp, hv⟩⟩
  rw [grantStep_of_mayGrant hg hp, if_pos hl]

/-- Settles O24: the request is latched and its transaction started; of the latches only the granted request changes. -/
theorem grantStartsTransaction : Obligations.GrantStartsTransaction := by
  intro s i p ho hi hp hv hl
  have hpend := fun j => pendOf_latchRequest i j p s
  refine ⟨_, grantStep_of_legal ho hi hp hv ((legalOpcode_iff p.op).2 hl), rfl, rfl, rfl, ?_, rfl, rfl, rfl, rfl, rfl,
    fun j hj => (hpend j).trans (if_neg (Ne.symm hj)), fun j => rspOf_latchRequest i j p s,
    rfl, rfl, rfl, rfl, rfl, rfl, rfl, rfl⟩
  refine (hpend i).trans ?_
  rw [if_pos rfl, hp]
  rfl

/-! ### The write step -/

theorem writeCount_eq (n : Nat) (s : State) : writeCount n s = min n (min (6 - s.txCnt) s.cfg.maxXfer) := by
  rw [writeCount, offered_length]

section
variable (n dur : Nat) {s : State} (hp : s.phase = .write)
include hp

theorem writeStep_of_expired (err : Xfer) (hd : s.deadline ≤ s.now) :
    writeStep n err dur s = complete (errResult .timeout (infoTimeoutWrite s.txCnt)) s := by
  simp [writeStep, hp, expired_of_le hd, fail_eq, errResult]

theorem writeStep_fail (hd : s.now < s.deadline) :
    writeStep n .fail dur s =
      complete (errResult .writeFailed infoNone) (chWrite (writeCount n s) (writeDuration dur s) s) := by
  simp [writeStep, hp, expired_of_lt hd, fail_eq, errResult]

theorem writeStep_ok (hd : s.now < s.deadline) :
    writeStep n .ok dur s = .next (countSent (writeCount n s) (chWrite (writeCount n s) (writeDuration dur s) s)) := by
  simp [writeStep, hp, expired_of_lt hd]

end

/-- Settles O26: the three cases of a write step, with what the attempt offers and how many bytes it moves written out. -/
theorem writeStepEffect : Obligations.WriteStepEffect := by
  intro s n err dur hp
  refine ⟨writeStep_of_expired n dur hp err, fun hd he => ?_, fun hd he => ?_⟩ <;> subst he
  · exact (writeStep_fail n dur hp hd).trans (by rw [writeCount_eq]; rfl)
  · refine (writeStep_ok n dur hp hd).trans ?_
    rw [writeCount_eq, countSent, chWrite_phase, hp]
    rfl

/-! ### The read step -/

theorem readCount_eq (n : Nat) (s : State) :
    readCount n s = min n (min (6 - s.rxCnt) (min s.cfg.maxXfer s.rxq.length)) := rfl

section
variable (n dur : Nat) {s : State} (hp : s.phase = .read)
include hp

theorem readStep_of_expired (err : Xfer) (hd : s.deadline ≤ s.now) :
    readStep n err dur s = complete (errResult .timeout (infoTimeoutRead s.rxCnt)) s := by
  simp [readStep, hp, expired_of_le hd, fail_eq, errResult]

theorem readStep_fail (hd : s.now < s.deadline) :
    readStep n .fail dur s =
      complete (errResult .readFailed infoNone) (chRead (readCount n s) (readDuration dur s) s) := by
  simp [readStep, hp, expired_of_lt hd, fail_eq, errResult]

theorem readStep_ok (hd : s.now < s.deadline) :
    readStep n .ok dur s =
      .next (storeReply (s.rxq.take (readCount n s)) (chRead (readCount n s) (readDuration dur s) s)) := by
  simp [readStep, hp, expired_of_lt hd]

end

/-- Settles O27: the three cases of a read step; what is stored lies in `RXBUF` from `RXCNT` on, and nothing else of it changes. -/
theorem readStepEffect : Obligations.ReadStepEffect := by
  intro s n err dur hp
  refine ⟨readStep_of_expired n dur hp err, fun hd he => ?_, fun hd he hcnt => ?_⟩ <;> subst he
  · exact readStep_fail n dur hp hd
  · rw [← readCount_eq]
    have hmissing := readCount_le_missing n s
    have hlen : (s.rxq.take (readCount n s)).length = readCount n s := by simp [readCount_le_rxq]
    have hget := fun j => Frame.get_fill s.rxBuf s.rxCnt (s.rxq.take (readCount n s)) j (by omega)
    rw [hlen] at hget
    refine ⟨_, readStep_ok n dur hp hd, congrArg (s.rxCnt + ·) hlen, rfl, rfl, ?phase, fun j hge hlt => ?stored,
      fun j hout => ?kept, rfl⟩
    case phase => rw [storeReply_phase, chRead_phase, hp]; rfl
    case stored =>
      have hlt : j < s.rxCnt + readCount n s := by simpa [hlen] using hlt
      have hrxq := readCount_le_rxq n s
      refine (congrArg some (hget j)).trans ?_
      rw [if_pos ⟨hge, hlt⟩, List.getD_eq_getElem?_getD, List.getElem?_take_of_lt (by omega),
        List.getElem?_eq_getElem (by omega), Option.getD_some]
    case kept =>
      have hout : j < s.rxCnt ∨ s.rxCnt + readCount n s ≤ j := by simpa [hlen] using hout
      exact (hget j).trans (if_neg (by omega))

/-! ### The callers' moves, `open` and configuration -/

/-- Settles O30: a request is latched exactly where a request step is enabled. -/
theorem requestStepLatches : Obligations.RequestStepLatches := by
  intro s i op val
  refine ⟨fun hl hw hf hd => ?latched, fun hn => ?ignored⟩
  case latched =>
    have hf : inFlight i s = false := by obtain hf | hf := hf <;> simp [inFlight, hf]
    have hm : mayRequest i s = true := (mayRequest_iff i s).2 ⟨hl, hw, hf, hd⟩
    have hpend := fun j => pendOf_requestStep i j op val s
    refine ⟨_, rfl, (hpend i).trans (if_pos ⟨hm, rfl⟩), fun j hj => (hpend j).trans (if_neg fun h => hj h.2.symm),
      fun j => rspOf_requestStep i j op val s, ?_⟩
    rw [requestStep, if_pos hm]
    rfl
  case ignored =>
    have hm : mayRequest i s = false := by
      by_contra hm
      obtain ⟨hl, hw, hf, hd⟩ := (mayRequest_iff i s).1 (by simpa using hm)
      obtain hn | hn | ⟨hb, ho⟩ | hn := hn
      · omega
      · simp [hw] at hn
      · exact owner_ne_of_not_inFlight hb hf ho
      · simp [hd] at hn
    simp [runMove, requestStep, hm]

theorem responseStep_of_not_rspWaits {i : Nat} {s : State} (h : rspWaits i s = false) : responseStep i s = s := by
  obtain ⟨-, he⟩ | ⟨r, hr, hv, -⟩ := responseStep_cases i s
  · exact he
  · simp [rspWaits_of_rspOf hr hv] at h

/-- Settles O31: a response step touches the valid bit of its own caller's response, and only if it is set. -/
theorem responseStepTakes : Obligations.ResponseStepTakes := by
  intro s i
  refine ⟨fun r hr hv => ?taken, fun hw => ?nothing⟩
  case taken =>
    have hrsp := fun j => rspOf_responseStep i j s
    refine ⟨_, rfl, ?_, fun j hj => (hrsp j).trans (if_neg (Ne.symm hj)), fun j => pendOf_responseStep i j s, ?_⟩
    · rw [hrsp, if_pos rfl, hr]
      rfl
    · obtain ⟨hn, -⟩ | ⟨q, -, -, he⟩ := responseStep_cases i s
      · simp [rspWaits_of_rspOf hr hv] at hn
      · rw [he]
        rfl
  case nothing => rw [runMove, responseStep_of_not_rspWaits hw]

/-- Settles O32: `open` and configuration each write their one field while the channel is closed. -/
theorem openAndConfigure : Obligations.OpenAndConfigure := by
  intro s c
  refine ⟨fun ho => ?closed, fun ho => ?opened⟩
  case closed => simp [runMove, openStep, configureStep, ho]
  case opened => rw [runMove, runMove, openStep_of_isOpen ho, configureStep_of_isOpen c ho]; exact ⟨rfl, rfl⟩

/-! ### Moves that are not enabled -/

theorem waits_eq_false_of_forall {s : State} (h : ∀ c ∈ s.callers, c.pend.valid = false) (i : Nat) :
    waits i s = false := by
  unfold waits pendOf
  cases hc : s.callers[i]? with
  | none => rfl
  | some c => exact h c (List.mem_of_getElem? hc)

theorem rspWaits_eq_false_of_forall {s : State} (h : ∀ c ∈ s.callers, c.rsp.valid = false) (i : Nat) :
    rspWaits i s = false := by
  unfold rspWaits rspOf
  cases hc : s.callers[i]? with
  | none => rfl
  | some c => exact h c (List.mem_of_getElem? hc)

/-- Settles O60: a grant needs an open channel, a free lock and a waiting request, a step of the sequencer its phase, and a
response step a response. -/
theorem disabledMovesChangeNothing : Obligations.DisabledMovesChangeNothing := by
  have hgrant : ∀ (s : State) (i : Nat), s.isOpen = false ∨ s.phase ≠ .idle ∨ waits i s = false →
      runMove (.grant i) s = .next s := by
    intro s i hn
    refine grantStep_of_not_mayGrant ?_
    by_contra hg
    obtain ⟨ho, hi, hw⟩ := (mayGrant_iff i s).1 (by simpa using hg)
    simp [ho, hi, hw] at hn
  refine ⟨hgrant, fun s hq => ?_⟩
  obtain ⟨hi, hrest⟩ := hq
  refine ⟨fun i => hgrant s i ?_, fun n err d => writeStep_of_ne n err d (by simp [hi]),
    fun n err d => readStep_of_ne n err d (by simp [hi]), decodeStep_of_ne (by simp [hi]), fun hs i => ?_⟩
  · exact hrest.imp_right fun hw => .inr (waits_eq_false_of_forall hw i)
  · obtain ⟨-, -, -, hr⟩ := hs
    rw [runMove, responseStep_of_not_rspWaits (rspWaits_eq_false_of_forall hr i)]

/-! ### One call -/

/-- A write attempt that takes the whole frame (42_transaction_engine R173). -/
theorem writeStep_whole (d : Nat) {s : State} (hp : s.phase = .write) (hd : s.now < s.deadline) (hc : s.txCnt = 0)
    (hx : 6 ≤ s.cfg.maxXfer) :
    writeStep 6 .ok d s = .next (countSent 6 (chWrite 6 (writeDuration d s) s)) := by
  have hcount : writeCount 6 s = 6 := by rw [writeCount_eq, hc]; omega
  rw [writeStep_ok 6 d hp hd, hcount]

/-- A read attempt that delivers the whole reply (42_transaction_engine R174). -/
theorem readStep_whole (d : Nat) {s : State} {reply : Frame} {rest : List Byte} (hp : s.phase = .read)
    (hd : s.now < s.deadline) (hc : s.rxCnt = 0) (hx : 6 ≤ s.cfg.maxXfer) (hq : s.rxq = reply.toList ++ rest) :
    readStep 6 .ok d s = .next (storeReply reply.toList (chRead 6 (readDuration d s) s)) := by
  have hcount : readCount 6 s = 6 := by
    rw [readCount_eq, hc, hq, List.length_append, Frame.length_toList]
    omega
  rw [readStep_ok 6 d hp hd, hcount, hq, List.take_left' (Frame.length_toList reply)]

theorem Frame.fill_toList (f g : Frame) : f.fill 0 g.toList = g := rfl

/-- From a grant on: one write attempt and one read attempt of six bytes, and the decode step. -/
theorem runSteps_whole_transfer {s : State} {reply : Frame} {rest : List Byte} {more : List Event} {d1 d2 : Nat}
    (hp : s.phase = .write) (htx : s.txCnt = 0) (hrx : s.rxCnt = 0) (hx : 6 ≤ s.cfg.maxXfer)
    (hd : s.now + d1 < s.deadline) (ho : s.owner < s.callers.length) (hq : s.rxq = reply.toList ++ rest)
    (hs : s.script = .move (.write 6 .ok d1) :: .move (.read 6 .ok d2) :: .move .decode :: more) :
    ∃ t, runSteps 3 s = .next t ∧ t.phase = .idle ∧ t.wireTx = s.wireTx ++ s.txBuf.toList ∧ t.rxq = rest ∧
      rspOf s.owner t = some (delivered (parseResponse reply.toList)) := by
  obtain ⟨u, hu, hup, hunow, hud, hurx, huc, huq, huo, hul, huw, hus⟩ :
      ∃ u, step s = .next u ∧ u.phase = .read ∧ u.now ≤ s.now + d1 ∧ u.deadline = s.deadline ∧ u.rxCnt = 0 ∧
        u.cfg = s.cfg ∧ u.rxq = s.rxq ∧ u.owner = s.owner ∧ u.callers = s.callers ∧
        u.wireTx = s.wireTx ++ s.txBuf.toList ∧ u.script = .move (.read 6 .ok d2) :: .move .decode :: more := by
    refine ⟨_, (step_of_script_move hs).trans (writeStep_whole d1 (s := { s with script := _ }) hp ?_ htx hx), ?_, ?_,
      rfl, hrx, rfl, rfl, rfl, rfl, ?_, rfl⟩
    · change s.now < s.deadline; omega
    · simp [htx, frameLen]
    · exact Nat.add_le_add_left (writeDuration_le_draw d1 _) s.now
    · simp [offered, htx]
  obtain ⟨v, hv, hvp, hvb, hvq, hvo, hvl, hvw, hvs⟩ :
      ∃ v, step u = .next v ∧ v.phase = .decode ∧ v.rxBuf = reply ∧ v.rxq = rest ∧ v.owner = u.owner ∧
        v.callers = u.callers ∧ v.wireTx = u.wireTx ∧ v.script = .move .decode :: more := by
    refine ⟨_, (step_of_script_move hus).trans (readStep_whole d2 (s := { u with script := _ }) hup ?_ hurx
      (huc ▸ hx) (huq.trans hq)), ?_, ?_, ?_, rfl, rfl, rfl, rfl⟩
    · change u.now < u.deadline; omega
    · simp [hurx, frameLen]
    · simp [hurx, Frame.fill_toList]
    · simp [huq, hq, List.drop_left' (Frame.length_toList reply)]
  obtain ⟨t, ht, hrest⟩ : ∃ t, step v = .next t ∧ t.phase = .idle ∧ t.wireTx = v.wireTx ∧ t.rxq = v.rxq ∧
      rspOf v.owner t = some (delivered (parseResponse v.rxBuf.toList)) := by
    have hstep := (step_of_script_move hvs).trans (decodeStep_eq (s := { v with script := more }) hvp)
    have howner : v.owner < v.callers.length := by rwa [hvl, hvo, hul, huo]
    obtain ⟨t, ht, hi, hr⟩ := complete_delivers (parseResponse v.rxBuf.toList) (s := { v with script := more }) howner
    refine ⟨t, hstep.trans ht, hi, (wireTx_of_complete ht :), ?_, hr⟩
    obtain ⟨-, rfl⟩ := complete_eq_next ht
    rfl
  rw [hvw, huw, hvq, hvo, huo, hvb] at hrest
  exact ⟨t, (runSteps_succ hu 2).trans ((runSteps_succ hv 1).trans (runSteps_succ ht 0)), hrest⟩

/-- Settles O56: the grant starts the transaction with the whole of `T_DEADLINE` left, and the three moves carry it through. -/
theorem sendReturnsTheReply : Obligations.SendReturnsTheReply := by
  intro s i p reply rest more d1 d2 ho hi hp hv hl hx hd hq hs
  have hgrant := (step_of_script_move hs).trans (grantStep_of_legal (s := { s with script := _ }) ho hi hp hv hl)
  have hport : i < s.callers.length := lt_of_waits ((waits_iff i s).2 ⟨p, hp, hv⟩)
  obtain ⟨t, ht, hrest⟩ := runSteps_whole_transfer (reply := reply) (rest := rest) (more := more) (d1 := d1) (d2 := d2)
    (s := startTransaction p.op p.val (latchRequest i p { s with script := _ })) rfl rfl rfl hx
    (by simpa using hd) (by simpa using hport) hq rfl
  exact ⟨t, (runSteps_succ hgrant 3).trans ht, hrest⟩

end Sys2Proof.Machine
end

section
/-!
The taking of an exception (60_exceptions R220), and that none halts the core (R221).
-/

namespace Sys2Proof.Machine

/-- A completion writes the phase and the caller ports, and no other field (60_exceptions R220). -/
theorem frame_of_complete {r : Result} {s t : State} (h : complete r s = .next t) :
    t = { s with phase := .idle, callers := t.callers } := by
  obtain ⟨-, rfl⟩ := complete_eq_next h
  rfl

/-- Settles O29: the owner's response latch and the phase are all that a completion writes. -/
theorem completeDelivers : Obligations.CompleteDelivers := by
  refine ⟨fail_eq, fun r s ho => ?_⟩
  obtain ⟨t, ht, hi, howner⟩ := complete_delivers r ho
  have hother : ∀ j, j ≠ s.owner → rspOf j t = rspOf j s := fun j hj =>
    (rspOf_of_complete ht j).trans (if_neg hj.symm)
  exact ⟨t, ht, howner, hi, hother, pendOf_of_complete ht, frame_of_complete ht⟩

/-- Settles O39: a fault comes only of a completion whose owner has no port, and the invariant gives the owner one. -/
theorem coherentNeverStops : Obligations.CoherentNeverStops := fun _ => exists_step

end Sys2Proof.Machine
end

section
/-!
Reset, as a move and as an edge with `rst = 1` (70_reset_and_hazards R250, R251).
-/

namespace Sys2Proof.Machine

/-- No latch is valid after `rst`, whatever was under way: the free values go to the payloads only (10_state R33). -/
theorem valid_of_mem_callers_resetCore {s : State} {c : CallerPort} (h : c ∈ (resetCore s).callers) :
    c.pend.valid = false ∧ c.rsp.valid = false := by
  obtain ⟨i, -, rfl⟩ := List.mem_map.1 h
  exact ⟨rfl, rfl⟩

/-- `rst` writes the ports anew but takes none away (`N_CALLERS` is fixed). -/
theorem length_callers_resetCore (s : State) : (resetCore s).callers.length = s.callers.length := by simp

/-- A step at an edge with `rst = 1` always answers: the reset, then the end of the edge. -/
theorem step_eq_of_rst {p : PortsIn} {s : State} (he : nextEvent s = .edge p) (hr : p.rst = true) :
    step s = .next (endEdge p (resetCore (takeEvent s))) := by
  rw [step, he]
  exact clockEdge_of_rst hr _

/-- While `rst = 1` no output offers or accepts anything (70_reset_and_hazards R250). -/
theorem outputs_low_of_rst (s : State) :
    txValid true s = false ∧ rxReady true s = false ∧ ∀ i, reqReady true i s = false ∧ rspValid true i s = false :=
  ⟨rfl, rfl, fun _ => ⟨rfl, rfl⟩⟩

/-- Settles O34: the move is `resetCore`; the edge is `resetCore` with the outputs low, then the device's bytes and one tick,
which touch `RXQ` and `NOW` only. -/
theorem resetDropsTransaction : Obligations.ResetDropsTransaction := by
  refine ⟨fun s => ?move, fun s p he hr => ?edge⟩
  case move =>
    exact ⟨resetCore s, rfl, rfl, rfl, rfl, rfl, length_callers_resetCore s,
      fun _ => valid_of_mem_callers_resetCore, rfl, rfl, rfl, rfl⟩
  case edge =>
    obtain ⟨htx, hrx, hports⟩ := outputs_low_of_rst s
    rw [hr]
    refine ⟨htx, hrx, hports, endEdge p (resetCore (takeEvent s)), step_eq_of_rst he hr, rfl, rfl, rfl, rfl, ?_,
      fun _ => valid_of_mem_callers_resetCore, ?_⟩
    · rw [endEdge_callers, length_callers_resetCore, takeEvent_callers]
    · simp

end Sys2Proof.Machine
end

section
/-!
A completion without an owner's port, and the reply rows that meet it (log entry 14); the grant that refuses an illegal opcode
(42_transaction_engine R169).
-/

namespace Sys2Proof.Machine

/-! ### An owner without a port -/

/-- A completion faults exactly where the owner has no port (log entry 14). -/
theorem complete_eq_fault_iff (r : Result) (s : State) :
    complete r s = .fault .noSuchCaller ↔ s.callers.length ≤ s.owner := by
  by_cases h : s.owner < s.callers.length
  · simp [complete_of_lt r h, h]
  · simp [complete_eq, h, Nat.le_of_not_lt h]

/-- Settles O21: in the decode phase such a row is a completion, and that faults only for want of the owner's port. -/
theorem replyRowsStopWithoutOwner : Obligations.ReplyRowsStopWithoutOwner := by
  intro s i hk hp
  obtain ⟨r, he⟩ := exec_of_kind_ne_request hk
  rw [he, if_pos hp]
  exact complete_eq_fault_iff r s

/-! ### The refusal of an illegal opcode -/

theorem grantStep_of_illegal {i : Nat} {p : Pend} {s : State} (ho : s.isOpen = true) (hi : s.phase = .idle)
    (hp : pendOf i s = some p) (hv : p.valid = true) (hl : legalOpcode p.op ≠ true) :
    grantStep i s = complete (errResult .illegalOpcode (infoIllegalOpcode p.op)) (latchRequest i p s) := by
  have hg : mayGrant i s = true := (mayGrant_iff i s).2 ⟨ho, hi, (waits_iff i s).2 ⟨p, hp, hv⟩⟩
  exact (grantStep_of_mayGrant hg hp).trans (if_neg hl)

theorem pendOf_latchRequest_self {i : Nat} {p : Pend} {s : State} (hp : pendOf i s = some p) :
    pendOf i (latchRequest i p s) = some { p with valid := false } := by
  simp [pendOf_latchRequest, hp]

theorem pendOf_latchRequest_of_ne {i j : Nat} (h : j ≠ i) (p : Pend) (s : State) :
    pendOf j (latchRequest i p s) = pendOf j s :=
  (pendOf_latchRequest i j p s).trans (if_neg h.symm)

/-- Settles O25: the request is latched, and the refusal is a completion at the caller just latched as owner. -/
theorem grantRefusesIllegalOpcode : Obligations.GrantRefusesIllegalOpcode := by
  intro s i p ho hi hp hv h43 h57 h52
  have hl : legalOpcode p.op ≠ true := by simp [legalOpcode_iff, h43, h57, h52]
  have hport : (latchRequest i p s).owner < (latchRequest i p s).callers.length := by
    simpa using lt_of_waits ((waits_iff i s).2 ⟨p, hp, hv⟩)
  obtain ⟨t, ht, hidle, hrsp⟩ := complete_delivers (errResult .illegalOpcode (infoIllegalOpcode p.op)) hport
  have hpend : pendOf i t = some { p with valid := false } :=
    (pendOf_of_complete ht i).trans (pendOf_latchRequest_self hp)
  have hothers : ∀ j, j ≠ i → pendOf j t = pendOf j s ∧ rspOf j t = rspOf j s := fun j hj =>
    ⟨(pendOf_of_complete ht j).trans (pendOf_latchRequest_of_ne hj p s),
      (rspOf_of_complete ht j).trans ((if_neg hj.symm).trans (rspOf_latchRequest i j p s))⟩
  have hgrant : runMove (.grant i) s = .next t := (grantStep_of_illegal ho hi hp hv hl).trans ht
  obtain ⟨-, rfl⟩ := complete_eq_next ht
  exact ⟨_, hgrant, rfl, rfl, rfl, hpend, hrsp, hidle, rfl, rfl, rfl, rfl, rfl, rfl, rfl, rfl, rfl, hothers⟩

end Sys2Proof.Machine
end
